-- ==== Sys2Proof/Word.lean ====
section
/-! DEFINITION. The word types of the engine (spec R6, R7): a stream byte, the 32-bit accumulator, counter, operand and response, and
the 36-bit command word with its 4-bit opcode. -/

namespace Sys2Proof

/-- One byte of the message stream (R6 "stream element"). -/
abbrev Byte := BitVec 8

/-- A 32-bit word: `crc_reg`, `count`, the operand and the response word (R6). -/
abbrev Word := BitVec 32

/-- The opcode field `w[35:32]` (R60). -/
abbrev Opcode := BitVec 4

/-- A 36-bit command word `(op[3:0], operand[31:0])` (R60). -/
abbrev CmdWord := BitVec 36

end Sys2Proof
end

