-- ==== Sys2Proof/Machine/Crc.lean ====
section
/-! DEFINITION. The CRC feedback datapath (R80 to R88): the bit step, the byte step, the stream fold, the final exclusive-or and the CRC of a message. -/

namespace Sys2Proof.Machine

/-- The generator polynomial in normal form: x^32 + x^26 + … + x + 1 (R80). -/
def crcPolyNormal : Word := 0x04C11DB7#32

/-- The generator polynomial in reflected form, used by the bit step (R80, R81). -/
def crcPoly : Word := 0xEDB88320#32

/-- init: the register value before the first byte (R80). -/
def crcInit : Word := 0xFFFFFFFF#32

/-- xorout (R80, R86). -/
def crcXorOut : Word := 0xFFFFFFFF#32

/-- `step1(c, b)`: one input bit into the register (R81). -/
def step1 (c : Word) (b : Bool) : Word :=
  let fb := c.getLsbD 0 ^^ b
  let c' := c >>> 1
  if fb then c' ^^^ crcPoly else c'

/-- Input bits into the register, the first first. -/
def feedBits (c : Word) (bits : List Bool) : Word := bits.foldl step1 c

/-- The bits of a byte in the order the engine takes them: bit 0 first, bit 7 last (R42, R82). -/
def byteBits (d : Byte) : List Bool :=
  [d.getLsbD 0, d.getLsbD 1, d.getLsbD 2, d.getLsbD 3, d.getLsbD 4, d.getLsbD 5, d.getLsbD 6, d.getLsbD 7]

/-- `step8(c, d)`: one byte into the register (R82). -/
def step8 (c : Word) (d : Byte) : Word := feedBits c (byteBits d)

/-- `acc(c, M)`: the bytes of a message into the register, in order (R85). -/
def acc (c : Word) (M : List Byte) : Word := M.foldl step8 c

/-- `final(c) = c ^ 0xFFFFFFFF` (R86). -/
def finalValue (c : Word) : Word := c ^^^ crcXorOut

/-- `CRC32(M) = final(acc(0xFFFFFFFF, M))` (R87). -/
def crc32 (M : List Byte) : Word := finalValue (acc crcInit M)

/-- The bits of a message in the order the engine takes them (R42, R85). -/
def messageBits (M : List Byte) : List Bool := M.flatMap byteBits

end Sys2Proof.Machine
end

