-- ==== Sys2Proof/Syntax.lean ====
section
/-! DEFINITION. The command set: one constructor per row of spec/opcode_table.json (R63). Every bit of the 36-bit command word is kept in
the constructor's fields, the ignored bits too (field `ign`), so that a command word and an instruction are the same data
and "an ignored bit has no effect of any kind" (R61) is something the meanings show. -/

namespace Sys2Proof

/-- A command of the engine (R60, R61, R63). -/
inductive Instr where
  /-- NOP, opcode 0x0, format N (R102). -/
  | nop (ign : Word)
  /-- INIT, opcode 0x1, format N (R103). -/
  | init (ign : Word)
  /-- FEED8, opcode 0x2, format B: the byte `d = operand[7:0]`; `operand[31:8]` is ignored (R104). -/
  | feed8 (ign : BitVec 24) (d : Byte)
  /-- FEED32, opcode 0x3, format W: the word `v = operand[31:0]` (R105). -/
  | feed32 (v : Word)
  /-- READ, opcode 0x4, format N (R106). -/
  | read (ign : Word)
  /-- CHECK, opcode 0x5, format W: the stored CRC `v = operand[31:0]` (R107). -/
  | check (v : Word)
  /-- STATUS, opcode 0x6, format N (R108). -/
  | status (ign : Word)
  /-- COUNT, opcode 0x7, format N (R109). -/
  | count (ign : Word)
  /-- The reserved opcodes 0x8 to 0xF, format N (R110); `op` is the whole opcode field. -/
  | reserved (op : Opcode) (ign : Word)
deriving DecidableEq, Repr

end Sys2Proof
end

