-- ==== Sys2Proof/Machine/State.lean ====
section
/-! DEFINITION. The engine's state as plain data: the 68-bit architectural record (R20), the responses on their way to the host and delivered to it (R66,
R67, R156), the registers of the signal-level port (R67), and what happens at the port next, which is the input of the machine. -/

namespace Sys2Proof.Machine

/-- The architectural state of R20, 68 bits. -/
structure Engine where
  /-- The CRC accumulator, before the final exclusive-or (R21). -/
  crcReg : Word
  /-- Bytes fed since the last INIT or reset, modulo 2^32 (R30). -/
  count : Word
  /-- The last CHECK found the final value different from its operand (R25). -/
  mismatch : Bool
  /-- A CHECK has executed since the last INIT or reset (R26). -/
  checked : Bool
  /-- A reserved opcode was accepted since the last INIT or reset (R27). -/
  illegal : Bool
  /-- `count` has wrapped past 0xFFFFFFFF since the last INIT or reset (R28). -/
  wrap : Bool
deriving DecidableEq, Repr

/-- A response of an accepted command that the engine has not yet delivered (R31 "a command in flight"). -/
structure Response where
  /-- The response word (R66). -/
  value : Word
  /-- Rising edges since the acceptance, the accepting edge included. Only the signal level moves it (log entry 4). -/
  age : Nat
deriving DecidableEq, Repr

/-- The registers of the signal-level port (R67). Only `edge` (Machine/Port.lean) reads or moves them; the transaction level has no time (R157). -/
structure Port where
  /-- How many edges after the last acceptance the coming edge stands, which CMD_INTERVAL bounds from below; a reset between does not end the count
  (R67 makes no exception for it). `none`: no acceptance yet. -/
  sinceAccept : Option Nat
  /-- For how many edges the present wait for `cmd_ready`, which an acceptance or a reset edge begins, has lasted (R152, U8). -/
  waited : Nat
  /-- The MODEL's own: which wait for `cmd_ready` this is, the counter of the free value `Config.readyDelay`. -/
  waits : Nat
  /-- The response on the wires in this cycle: `some v` is `rsp_valid = 1` with `rsp_data = v`; `none` is `rsp_valid = 0`. -/
  rsp : Option Word
  /-- The MODEL's own: the counter of the free value `Config.freeRspData`. -/
  cycle : Nat
deriving DecidableEq, Repr

/-- What happens next at the port, at the transaction level (R50, R100, R151). -/
inductive PortEvent where
  /-- The port accepts this command word (R67, R100). -/
  | command (w : CmdWord)
  /-- The oldest undelivered response reaches the host (R67). -/
  | deliver
  /-- A reset falls here, between two commands (R151). -/
  | reset
deriving DecidableEq, Repr

/-- The whole state of the machine. -/
structure State where
  /-- The architectural record (R20). -/
  engine : Engine
  /-- Responses of accepted commands not yet delivered, the oldest first (R31, R67, R151). -/
  inFlight : List Response
  /-- Responses delivered since the last reset edge, the oldest first (R156, R158): the host's observation, the MODEL's own record. -/
  delivered : List Word
  /-- The signal-level port (R67). -/
  port : Port
  /-- What the outside does at the port next, the first first: the machine's input, the MODEL's own. -/
  events : List PortEvent
deriving DecidableEq, Repr

/-- The faults: NONE. "A model of the engine has no fault outcome, and it must not add one" (R130). No constructor, so no one raises one: safe. -/
inductive Fault where
deriving DecidableEq, Repr

/-- The refusals. -/
inductive Refusal where
  /-- Raised by an arm of `exec` whose instruction has no meaning yet, and by nothing else; every arm has its meaning, so no one raises it. Safe:
  the machine stops where the hardware goes on. -/
  | notModelled (mnemonic : String)
deriving DecidableEq, Repr

/-- The reset values of the architectural record (R32). -/
def Engine.reset : Engine :=
  { crcReg := 0xFFFFFFFF#32, count := 0#32, mismatch := false, checked := false, illegal := false, wrap := false }

/-- The port right after the reset edge that begins a run: no response on the wires (R151), no acceptance yet and a wait that begins (R152), the
counters of the free values at their first values. DESIGN CHOICE, log entry 8. -/
def Port.reset : Port :=
  { sinceAccept := none, waited := 0, waits := 0, rsp := none, cycle := 0 }

/-- The machine right after reset (R32, R150, R151): nothing in flight, nothing delivered, and nothing presented at the port yet. -/
def State.reset : State :=
  { engine := Engine.reset, inFlight := [], delivered := [], port := Port.reset, events := [] }

end Sys2Proof.Machine
end

