-- ==== Sys2Proof/Machine/Flags.lean ====
section
/-! DEFINITION. Every flag computation of the engine: the count's sum and carry (R101), the CHECK comparison (R107) and the STATUS word (R29). -/

namespace Sys2Proof.Machine

/-- The 33-bit sum of `count` and the number of bytes fed, with no loss (R101). -/
def countSum (count : Word) (k : Nat) : BitVec 33 := count.setWidth 33 + BitVec.ofNat 33 k

/-- `sum[32]`: the addition carries `count` past 0xFFFFFFFF (R28, R101). -/
def countCarry (count : Word) (k : Nat) : Bool := (countSum count k).getLsbD 32

/-- `sum[31:0]`: the new `count` (R30, R101). -/
def countLow (count : Word) (k : Nat) : Word := (countSum count k).extractLsb' 0 32

/-- The comparison of CHECK: all 32 bits of the final value against the operand (R25, R107, R112). -/
def mismatchOf (crcReg v : Word) : Bool := finalValue crcReg != v

/-- The STATUS word: 28 zero bits, then WRAP, ILLEGAL, CHECKED, MISMATCH (R29). -/
def statusWord (e : Engine) : Word :=
  0#28 ++ BitVec.ofBool e.wrap ++ BitVec.ofBool e.illegal ++ BitVec.ofBool e.checked ++ BitVec.ofBool e.mismatch

end Sys2Proof.Machine
end

