-- ==== Sys2Proof/WellFormed.lean ====
section
/-! DEFINITION. Which instructions are command words. The field widths carry all but one check: the opcode of `reserved` is one of 0x8 to 0xF
(R63, R64, R68 "where <op> is 8 to 15"). -/

namespace Sys2Proof

/-- A reserved opcode is one with `w[35] = 1` (R63, R64). -/
def reservedOpcode (op : Opcode) : Bool := decide (8 ≤ op.toNat)

/-- The checks on an instruction. -/
def Instr.wellFormed : Instr → Bool
  | .nop _ => true
  | .init _ => true
  | .feed8 _ _ => true
  | .feed32 _ => true
  | .read _ => true
  | .check _ => true
  | .status _ => true
  | .count _ => true
  | .reserved op _ => reservedOpcode op

end Sys2Proof
end

