-- ==== Sys2Proof/Decode.lean ====
section
/-! DEFINITION. Decoding and encoding of command words (R60 to R65), from the opcode map of R63 and spec/opcode_table.json. Decoding is total: "Every one
of the 2^36 command words decodes to exactly one row". No state of the engine changes how a word decodes (R65). -/

namespace Sys2Proof

/-! ### Fields (R60) -/

/-- `cmd.op = w[35:32]` (R60). -/
def opField (w : CmdWord) : Opcode := w.extractLsb' 32 4

/-- `cmd.operand = w[31:0]` (R60). -/
def operandField (w : CmdWord) : Word := w.extractLsb' 0 32

/-- The command word with the two fields (R60; on the port `cmd_op` and `cmd_data`). -/
def cmdWord (op : Opcode) (operand : Word) : CmdWord := op ++ operand

/-- The byte operand of format B: `operand[7:0]` (R61, R62). -/
def byteOperand (operand : Word) : Byte := operand.extractLsb' 0 8

/-- The bits format B ignores: `operand[31:8]` (R61). -/
def aboveByte (operand : Word) : BitVec 24 := operand.extractLsb' 8 24

/-! ### Decoding (R63) -/

/-- The command a command word is (R63). -/
def decode (w : CmdWord) : Instr :=
  match (opField w).toNat with
  | 0x0 => .nop (operandField w)
  | 0x1 => .init (operandField w)
  | 0x2 => .feed8 (aboveByte (operandField w)) (byteOperand (operandField w))
  | 0x3 => .feed32 (operandField w)
  | 0x4 => .read (operandField w)
  | 0x5 => .check (operandField w)
  | 0x6 => .status (operandField w)
  | 0x7 => .count (operandField w)
  | _ => .reserved (opField w) (operandField w)

/-! ### Encoding (R60, R63) -/

/-- The opcode field of a command (R63). -/
def Instr.opcode : Instr → Opcode
  | .nop _ => 0x0#4
  | .init _ => 0x1#4
  | .feed8 _ _ => 0x2#4
  | .feed32 _ => 0x3#4
  | .read _ => 0x4#4
  | .check _ => 0x5#4
  | .status _ => 0x6#4
  | .count _ => 0x7#4
  | .reserved op _ => op

/-- The operand field of a command, the ignored bits included (R61). -/
def Instr.operand : Instr → Word
  | .nop ign => ign
  | .init ign => ign
  | .feed8 ign d => ign ++ d
  | .feed32 v => v
  | .read ign => ign
  | .check v => v
  | .status ign => ign
  | .count ign => ign
  | .reserved _ ign => ign

/-- The command word of a command (R60). -/
def encode (i : Instr) : CmdWord := cmdWord i.opcode i.operand

/-! ### The opcode table -/

/-- One row of spec/opcode_table.json: a word `w` is of the row when `w &&& mask = pattern`. -/
structure TableRow where
  mnemonic : String
  pattern : CmdWord
  mask : CmdWord
deriving DecidableEq, Repr

/-- The rows of spec/opcode_table.json, "match" and "mask" as they stand there. -/
def opcodeTable : List TableRow :=
  [ ⟨"NOP", 0x000000000, 0xF00000000⟩,
    ⟨"INIT", 0x100000000, 0xF00000000⟩,
    ⟨"FEED8", 0x200000000, 0xF00000000⟩,
    ⟨"FEED32", 0x300000000, 0xF00000000⟩,
    ⟨"READ", 0x400000000, 0xF00000000⟩,
    ⟨"CHECK", 0x500000000, 0xF00000000⟩,
    ⟨"STATUS", 0x600000000, 0xF00000000⟩,
    ⟨"COUNT", 0x700000000, 0xF00000000⟩,
    ⟨"RESERVED", 0x800000000, 0x800000000⟩ ]

/-- A command word is one of a row's. -/
def TableRow.covers (r : TableRow) (w : CmdWord) : Bool := w &&& r.mask == r.pattern

/-- The row a command stands in, by its place in the table. -/
def Instr.rowIndex : Instr → Nat
  | .nop _ => 0
  | .init _ => 1
  | .feed8 _ _ => 2
  | .feed32 _ => 3
  | .read _ => 4
  | .check _ => 5
  | .status _ => 6
  | .count _ => 7
  | .reserved _ _ => 8

/-- The instruction the decoder reads from the table's numbering of a word's bits (bit 0 the least significant bit of the one 36-bit
command word). A number with a bit above bit 35 is no command word. -/
def decodeTableWord (nbits w : Nat) : Option Instr :=
  let v := w % 2 ^ nbits
  if v < 2 ^ 36 then some (decode (BitVec.ofNat 36 v)) else none

end Sys2Proof
end

