-- ==== Sys2Proof/Machine/Operands.lean ====
section
/-! DEFINITION. How operands are assembled and how words become bytes (R43, R44, R45, R61, R62). -/

namespace Sys2Proof.Machine

/-- The three command formats: which bits of the operand a command reads (R61). -/
inductive Format where
  /-- No operand bit is read. -/
  | N
  /-- Bits 7:0 are read, the byte `d`. -/
  | B
  /-- Bits 31:0 are read, the word `v`. -/
  | W
deriving DecidableEq, Repr

/-- The format of the commands with this opcode (R61, R63). -/
def formatOf (op : Opcode) : Format :=
  match op.toNat with
  | 0x2 => .B
  | 0x3 => .W
  | 0x5 => .W
  | _ => .N

/-- The operand bits a format reads, as a mask over `operand` (R61). -/
def Format.readMask : Format → Word
  | .N => 0x00000000#32
  | .B => 0x000000FF#32
  | .W => 0xFFFFFFFF#32

/-- The four bytes of a word, the most significant first: FEED32's feed order (R43, R62), and the wire order of a stored CRC (R44). -/
def wordBytes (v : Word) : List Byte :=
  [v.extractLsb' 24 8, v.extractLsb' 16 8, v.extractLsb' 8 8, v.extractLsb' 0 8]

/-- The big-endian word of four bytes in stream order (R43, R45). -/
def packBytes (b0 b1 b2 b3 : Byte) : Word := b0 ++ b1 ++ b2 ++ b3

/-- The four bytes of a word, the least significant first (the order of the residue, R80). -/
def wordBytesLE (v : Word) : List Byte :=
  [v.extractLsb' 0 8, v.extractLsb' 8 8, v.extractLsb' 16 8, v.extractLsb' 24 8]

end Sys2Proof.Machine
end

