-- ==== Sys2Proof/Machine/Ops.lean ====
section
/-! DEFINITION. The shared operations on the state: writing the record, the count advance (R101), feeding bytes (R104, R105), answering (R66), delivering a response and
reset. The engine has no memory and no register file to read or write (R22, R40), and no exception to take or return from: "There is no trap
entry, trap return or nesting" (R130, R137), so none stands here. -/

namespace Sys2Proof.Machine

/-- The state with another architectural record. -/
def State.withEngine (s : State) (e : Engine) : State := { s with engine := e }

/-- `resp <- v`: the command's one response joins those on their way to the host (R66, R67). -/
def State.respond (s : State) (v : Word) : State := { s with inFlight := s.inFlight ++ [{ value := v, age := 0 }] }

/-- `advance(k)` (R101): `count` plus k modulo 2^32; WRAP is set by the carry and never cleared here. -/
def Engine.advance (e : Engine) (k : Nat) : Engine :=
  { e with count := countLow e.count k, wrap := e.wrap || countCarry e.count k }

/-- The byte step and the stream fold on `crc_reg` (R104, R105): these bytes in order. -/
def Engine.feed (e : Engine) (bytes : List Byte) : Engine := { e with crcReg := acc e.crcReg bytes }

/-- CHECK's flags (R107). -/
def Engine.compare (e : Engine) (v : Word) : Engine :=
  { e with mismatch := mismatchOf e.crcReg v, checked := true }

/-- A reserved opcode's flag (R110). -/
def Engine.markIllegal (e : Engine) : Engine := { e with illegal := true }

/-- What INIT leaves of the record (R103), written out from its pseudocode. -/
def Engine.afterInit (_e : Engine) : Engine :=
  { crcReg := crcInit, count := 0#32, mismatch := false, checked := false, illegal := false, wrap := false }

/-- The oldest undelivered response reaches the host (R67 "Responses are never reordered"); with none in flight nothing happens. -/
def State.deliver (s : State) : State :=
  match s.inFlight with
  | [] => s
  | r :: rest => { s with inFlight := rest, delivered := s.delivered ++ [r.value] }

/-- A reset between two commands (R32, R150, R151): the record takes its reset values, and every undelivered response is discarded. The host's
observation begins anew (R156). -/
def State.resetNow (s : State) : State :=
  { s with engine := Engine.reset, inFlight := [], delivered := [] }

/-- The state with this command word presented next at the port. -/
def State.present (s : State) (w : CmdWord) : State := { s with events := .command w :: s.events }

/-- The state with the first event taken from the machine's input. -/
def State.withEvents (s : State) (evs : List PortEvent) : State := { s with events := evs }

end Sys2Proof.Machine
end

