-- ==== Sys2Proof/Machine/Control.lean ====
section
/-! DEFINITION. NOP (R102), INIT (R103) and the reserved opcodes (R110). -/

namespace Sys2Proof.Machine

/-- NOP (R102): no state, response 0. -/
def execNop (_ign : Word) (s : State) : Host.Outcome State Fault Refusal :=
  .next (s.respond 0#32)

/-- INIT (R103): the whole record to its initial values, response 0. -/
def execInit (_ign : Word) (s : State) : Host.Outcome State Fault Refusal :=
  .next ((s.withEngine s.engine.afterInit).respond 0#32)

/-- A reserved opcode (R110, R132): `ILLEGAL <- 1`, response 0, nothing else, whichever of the eight it is. -/
def execReserved (_op : Opcode) (_ign : Word) (s : State) : Host.Outcome State Fault Refusal :=
  .next ((s.withEngine s.engine.markIllegal).respond 0#32)

end Sys2Proof.Machine
end

