-- ==== Sys2Proof/Machine/Feed.lean ====
section
/-! DEFINITION. FEED8 (R104) and FEED32 (R105). -/

namespace Sys2Proof.Machine

/-- FEED8 (R104): one byte into `crc_reg`, `advance(1)`, response 0. -/
def execFeed8 (_ign : BitVec 24) (d : Byte) (s : State) : Host.Outcome State Fault Refusal :=
  .next ((s.withEngine ((s.engine.feed [d]).advance 1)).respond 0#32)

/-- FEED32 (R105): four bytes into `crc_reg`, the most significant first, `advance(4)`, response 0. -/
def execFeed32 (v : Word) (s : State) : Host.Outcome State Fault Refusal :=
  .next ((s.withEngine ((s.engine.feed (wordBytes v)).advance 4)).respond 0#32)

end Sys2Proof.Machine
end

