-- ==== Sys2Proof/Machine/Query.lean ====
section
/-! DEFINITION. READ (R106), CHECK (R107), STATUS (R108) and COUNT (R109). -/

namespace Sys2Proof.Machine

/-- READ (R106): the final value of `crc_reg` is the response, no state is written. -/
def execRead (_ign : Word) (s : State) : Host.Outcome State Fault Refusal :=
  .next (s.respond (finalValue s.engine.crcReg))

/-- CHECK (R107): MISMATCH and CHECKED are written, the final value is the response. -/
def execCheck (v : Word) (s : State) : Host.Outcome State Fault Refusal :=
  .next ((s.withEngine (s.engine.compare v)).respond (finalValue s.engine.crcReg))

/-- STATUS (R108): the STATUS word is the response, no state is written. -/
def execStatus (_ign : Word) (s : State) : Host.Outcome State Fault Refusal :=
  .next (s.respond (statusWord s.engine))

/-- COUNT (R109): `count` is the response, no state is written. -/
def execCount (_ign : Word) (s : State) : Host.Outcome State Fault Refusal :=
  .next (s.respond s.engine.count)

end Sys2Proof.Machine
end

