-- ==== Sys2Proof/Machine/Dispatch.lean ====
section
/-! DEFINITION. One arm per command: its meaning (R100). -/

namespace Sys2Proof.Machine

/-- The effect of a command on the state (R100). -/
def exec (i : Instr) (s : State) : Host.Outcome State Fault Refusal :=
  match i with
  | .nop ign => Sys2Proof.Machine.execNop ign s
  | .init ign => Sys2Proof.Machine.execInit ign s
  | .feed8 ign d => Sys2Proof.Machine.execFeed8 ign d s
  | .feed32 v => Sys2Proof.Machine.execFeed32 v s
  | .read ign => Sys2Proof.Machine.execRead ign s
  | .check v => Sys2Proof.Machine.execCheck v s
  | .status ign => Sys2Proof.Machine.execStatus ign s
  | .count ign => Sys2Proof.Machine.execCount ign s
  | .reserved op ign => Sys2Proof.Machine.execReserved op ign s

end Sys2Proof.Machine
end

