-- ==== Sys2Proof/Machine/Step.lean ====
section
/-! DEFINITION. One step of the machine at the transaction level (R50, R100, R151): what stands first in the port's input happens. -/

namespace Sys2Proof.Machine

/-- One step. A command is decoded and executed; a response is delivered; a reset falls; with nothing presented the engine waits and
its state is held (R143, R152). -/
def step (s : State) : Host.Outcome State Fault Refusal :=
  match s.events with
  | [] => .next s
  | .command w :: rest => exec (decode w) (s.withEvents rest)
  | .deliver :: rest => .next (s.withEvents rest).deliver
  | .reset :: rest => .next (s.withEvents rest).resetNow

/-- The state with the table's word presented next at the command port: there is no fetch (R23, R54), the host presents commands. -/
def State.withFetchWord (s : State) (nbits w : Nat) : State :=
  s.present (BitVec.ofNat 36 (w % 2 ^ nbits))

end Sys2Proof.Machine
end

