-- ==== Sys2Proof/Config.lean ====
section
/-! DEFINITION. What the spec leaves OPEN (R6, U6, U7, U8, R70). Every constant here is opaque: it has no body, so no proof can see which number it
is, and a statement about it holds whatever the implementation chose. No rule of the transaction level reads the timing constants (R157);
only the signal level (Machine/Port.lean) and FEEDSTR of non-ASCII text (Machine/Assembler.lean) read this file. DESIGN CHOICE, log entry 11: the
instances of a platform (R6, R141) share the port's constants and free values; the spec does not say whether they do. -/

namespace Sys2Proof

/-- `RSP_LATENCY` less one: OPEN (R6, R67). Log entry 4. One number for all instances of a platform: DESIGN CHOICE, log entry 11. -/
opaque Config.rspLatencyLess1 : Nat

/-- `RSP_LATENCY >= 1`: the cycles from an acceptance to its response (R67, R157). -/
def Config.rspLatency : Nat := Config.rspLatencyLess1 + 1

/-- `CMD_INTERVAL` less one: OPEN (R6, R67). Log entry 4. One number for all instances of a platform: DESIGN CHOICE, log entry 11. -/
opaque Config.cmdIntervalLess1 : Nat

/-- `CMD_INTERVAL >= 1`: the least number of edges between two acceptances (R67, R157). -/
def Config.cmdInterval : Nat := Config.cmdIntervalLess1 + 1

/-- For how many cycles at least the engine keeps `cmd_ready` low in its n-th wait (after a reset edge or after an acceptance), whatever
CMD_INTERVAL asks: any finite number (R152, U8). A free value. Log entry 5. One function for all instances of a platform, so two of them in
one wait are ready alike: DESIGN CHOICE, log entry 11. -/
opaque Config.readyDelay : Nat → Nat

/-- What `rsp_data` carries in the n-th cycle, where `rsp_valid = 0`: it means nothing, any value (R67, U6). A free value.
Log entry 6. One function for all instances of a platform: DESIGN CHOICE, log entry 11. -/
opaque Config.freeRspData : Nat → Word

/-- The bytes by which the host encodes a text that is not all ASCII (R70 "the bytes of text as the host encodes it").
A free value. Log entry 10. -/
opaque Config.hostEncode : List Char → List Byte

end Sys2Proof
end

