-- ==== Sys2Proof/Machine/HostCommands.lean ====
section
/-! DEFINITION. The host's command sequences the spec defines: the pseudo-commands FEEDBYTES, FEEDSTR, CHUNKCRC and CHUNKCHECK (R69 to R71), which are the host's duties
of R153 items 2 and 3, and the execution of a list of commands in order (R50). -/

namespace Sys2Proof.Machine

/-- Commands executed one after another, each seeing the full effect of those before it (R50, R155). -/
def runInstrs : List Instr → State → Host.Outcome State Fault Refusal
  | [], s => .next s
  | i :: rest, s =>
    match exec i s with
    | .next t => runInstrs rest t
    | .fault f => .fault f
    | .refused r => .refused r

/-- `FEEDBYTES`: a FEED32 for every four bytes, then a FEED8 for each byte left (R69). -/
def feedBytes : List Byte → List Instr
  | [] => []
  | [a] => [.feed8 0 a]
  | [a, b] => [.feed8 0 a, .feed8 0 b]
  | [a, b, c] => [.feed8 0 a, .feed8 0 b, .feed8 0 c]
  | a :: b :: c :: d :: rest => .feed32 (packBytes a b c d) :: feedBytes rest

/-- The ASCII code of a character (R7, G9). -/
def asciiByte (c : Char) : Option Byte := if c.toNat < 128 then some (BitVec.ofNat 8 c.toNat) else none

/-- The bytes of a text as the host encodes it (R70): for ASCII text the ASCII codes, else the host's own choice. -/
def textBytes (cs : List Char) : List Byte :=
  if cs.all (fun c => decide (c.toNat < 128)) then cs.map (fun c => BitVec.ofNat 8 c.toNat) else Config.hostEncode cs

/-- `FEEDSTR` (R70). -/
def feedStr (cs : List Char) : List Instr := feedBytes (textBytes cs)

/-- `CHUNKCRC`: INIT, the type, the data, READ (R71). -/
def chunkCrc (type : Word) (data : List Byte) : List Instr :=
  [.init 0, .feed32 type] ++ feedBytes data ++ [.read 0]

/-- `CHUNKCHECK`: the same with CHECK of the stored CRC in place of READ, then STATUS (R71). -/
def chunkCheck (type : Word) (data : List Byte) (stored : Word) : List Instr :=
  [.init 0, .feed32 type] ++ feedBytes data ++ [.check stored, .status 0]

/-- The bytes a command appends to the message: one for FEED8, four for FEED32, none for every other (R41, R104, R105). -/
def fedBytes : Instr → List Byte
  | .nop _ => []
  | .init _ => []
  | .feed8 _ d => [d]
  | .feed32 v => wordBytes v
  | .read _ => []
  | .check _ => []
  | .status _ => []
  | .count _ => []
  | .reserved _ _ => []

/-- The message of a chunk: the four type bytes, then the data (R9, R88). -/
def chunkMessage (type : Word) (data : List Byte) : List Byte := wordBytes type ++ data

end Sys2Proof.Machine
end

