-- ==== Sys2Proof/Machine/Assembler.lean ====
section
/-! DEFINITION. The assembler of R68 to R71: statements, their range checks and expansion into commands, and one line of text. -/

namespace Sys2Proof.Machine

/-! ### Statements -/

/-- An operand as it is written (R68). -/
inductive Literal where
  /-- A hexadecimal or decimal literal. -/
  | num (n : Nat)
  /-- A quoted literal such as `'o'` or `'IEND'`. -/
  | quoted (cs : List Char)
deriving DecidableEq, Repr

/-- One assembler statement (R68 to R71). -/
inductive Stmt where
  | nop
  | init
  | read
  | status
  | count
  | feed8 (x : Literal)
  | feed32 (x : Literal)
  | check (n : Nat)
  | rsvd (op : Nat)
  | feedbytes (bytes : List Literal)
  | feedstr (text : List Char)
  | chunkcrc (type : Literal) (bytes : List Literal)
  | chunkcheck (type : Literal) (bytes : List Literal) (stored : Nat)
deriving DecidableEq, Repr

/-- A FEED8 operand: 0 to 255, or a one-character quoted literal (R68). -/
def byteLiteral : Literal → Option Byte
  | .num n => if n ≤ 255 then some (BitVec.ofNat 8 n) else none
  | .quoted [c] => asciiByte c
  | .quoted _ => none

/-- A 32-bit value: 0 to 0xFFFFFFFF (R68). -/
def wordValue (n : Nat) : Option Word := if n ≤ 0xFFFFFFFF then some (BitVec.ofNat 32 n) else none

/-- A FEED32 operand: 0 to 0xFFFFFFFF, or a four-character quoted literal packed big-endian (R68). -/
def wordLiteral : Literal → Option Word
  | .num n => wordValue n
  | .quoted [a, b, c, d] =>
    match asciiByte a, asciiByte b, asciiByte c, asciiByte d with
    | some a, some b, some c, some d => some (packBytes a b c d)
    | _, _, _, _ => none
  | .quoted _ => none

/-- A reserved opcode as it is written: 8 to 15 (R68). -/
def reservedLiteral (op : Nat) : Option Opcode := if 8 ≤ op ∧ op ≤ 15 then some (BitVec.ofNat 4 op) else none

/-- Byte operands in a row; one out of range is an error of the whole statement. -/
def byteLiterals : List Literal → Option (List Byte)
  | [] => some []
  | x :: rest =>
    match byteLiteral x, byteLiterals rest with
    | some b, some bs => some (b :: bs)
    | _, _ => none

/-- The commands of a statement, or an assembly error (`none`). The operand field of an N-format command is assembled as 0 (R68). -/
def Stmt.expand : Stmt → Option (List Instr)
  | .nop => some [.nop 0]
  | .init => some [.init 0]
  | .read => some [.read 0]
  | .status => some [.status 0]
  | .count => some [.count 0]
  | .feed8 x => (byteLiteral x).map fun d => [.feed8 0 d]
  | .feed32 x => (wordLiteral x).map fun v => [.feed32 v]
  | .check n => (wordValue n).map fun v => [.check v]
  | .rsvd op => (reservedLiteral op).map fun o => [.reserved o 0]
  | .feedbytes bytes => (byteLiterals bytes).map feedBytes
  | .feedstr text => some (feedStr text)
  | .chunkcrc type bytes =>
    match wordLiteral type, byteLiterals bytes with
    | some t, some bs => some (chunkCrc t bs)
    | _, _ => none
  | .chunkcheck type bytes stored =>
    match wordLiteral type, byteLiterals bytes, wordValue stored with
    | some t, some bs, some c => some (chunkCheck t bs c)
    | _, _, _ => none

/-- The command words of a statement, or an assembly error. -/
def Stmt.assemble (st : Stmt) : Option (List CmdWord) := st.expand.map (·.map encode)

/-! ### Ranges, said on the written numbers alone (R68) -/

/-- A character with an ASCII code. -/
def asciiChar (c : Char) : Bool := decide (c.toNat < 128)

/-- The values FEED8 takes (R68). -/
def Literal.isByte : Literal → Bool
  | .num n => decide (n ≤ 255)
  | .quoted cs => decide (cs.length = 1) && cs.all asciiChar

/-- The values FEED32 takes (R68). -/
def Literal.isWord : Literal → Bool
  | .num n => decide (n ≤ 0xFFFFFFFF)
  | .quoted cs => decide (cs.length = 4) && cs.all asciiChar

/-- Every value of the statement is in the range its command takes (R68). -/
def Stmt.inRange : Stmt → Bool
  | .nop => true
  | .init => true
  | .read => true
  | .status => true
  | .count => true
  | .feed8 x => x.isByte
  | .feed32 x => x.isWord
  | .check n => decide (n ≤ 0xFFFFFFFF)
  | .rsvd op => decide (8 ≤ op) && decide (op ≤ 15)
  | .feedbytes bytes => bytes.all Literal.isByte
  | .feedstr _ => true
  | .chunkcrc type bytes => type.isWord && bytes.all Literal.isByte
  | .chunkcheck type bytes stored => type.isWord && bytes.all Literal.isByte && decide (stored ≤ 0xFFFFFFFF)

/-! ### One line of text (R68; what the rule leaves open is in log entry 9) -/

/-- The tokens of a line. -/
inductive Token where
  | name (cs : List Char)
  | num (n : Nat)
  | quoted (cs : List Char)
  | text (cs : List Char)
  | comma
deriving DecidableEq, Repr

/-- The value of a digit in base 16 or less. -/
def digitValue (c : Char) : Option Nat :=
  let n := c.toNat
  if 48 ≤ n ∧ n ≤ 57 then some (n - 48)
  else if 65 ≤ n ∧ n ≤ 70 then some (n - 55)
  else if 97 ≤ n ∧ n ≤ 102 then some (n - 87)
  else none

/-- Digits of a base, after the value read so far. -/
def readDigits (base : Nat) : Nat → List Char → Option Nat
  | v, [] => some v
  | v, c :: cs =>
    match digitValue c with
    | some d => if d < base then readDigits base (v * base + d) cs else none
    | none => none

/-- A bare word: a literal `0x…` or decimal where it begins with a digit, else a name. -/
def bareToken (cs : List Char) : Option Token :=
  match cs with
  | '0' :: 'x' :: d :: ds => (readDigits 16 0 (d :: ds)).map Token.num
  | c :: rest => if 48 ≤ c.toNat ∧ c.toNat ≤ 57 then (readDigits 10 0 (c :: rest)).map Token.num else some (.name cs)
  | [] => none

/-- Where the reader of a line stands: between tokens, or inside one (its characters so far, the last first). -/
inductive LexMode where
  | between
  | bare (acc : List Char)
  | quote (acc : List Char)
  | dquote (acc : List Char)
deriving DecidableEq, Repr

/-- A token before the tokens that follow it. -/
def withToken (t : Option Token) (rest : Option (List Token)) : Option (List Token) :=
  match t, rest with
  | some t, some ts => some (t :: ts)
  | _, _ => none

/-- The tokens of the characters left; `;` starts a comment. -/
def lexLine : LexMode → List Char → Option (List Token)
  | .between, [] => some []
  | .bare acc, [] => withToken (bareToken acc.reverse) (some [])
  | .quote _, [] => none
  | .dquote _, [] => none
  | .between, c :: cs =>
    if c = ' ' ∨ c = '\t' then lexLine .between cs
    else if c = ';' then some []
    else if c = ',' then withToken (some .comma) (lexLine .between cs)
    else if c = '\'' then lexLine (.quote []) cs
    else if c = '"' then lexLine (.dquote []) cs
    else lexLine (.bare [c]) cs
  | .bare acc, c :: cs =>
    if c = ' ' ∨ c = '\t' then withToken (bareToken acc.reverse) (lexLine .between cs)
    else if c = ';' then withToken (bareToken acc.reverse) (some [])
    else if c = ',' then withToken (bareToken acc.reverse) (withToken (some .comma) (lexLine .between cs))
    else if c = '\'' ∨ c = '"' then none
    else lexLine (.bare (c :: acc)) cs
  | .quote acc, c :: cs =>
    if c = '\'' then withToken (some (.quoted acc.reverse)) (lexLine .between cs) else lexLine (.quote (c :: acc)) cs
  | .dquote acc, c :: cs =>
    if c = '"' then withToken (some (.text acc.reverse)) (lexLine .between cs) else lexLine (.dquote (c :: acc)) cs

/-- A token that is an operand. -/
def Token.literal : Token → Option Literal
  | .num n => some (.num n)
  | .quoted cs => some (.quoted cs)
  | .name _ => none
  | .text _ => none
  | .comma => none

/-- Operands separated by commas. -/
def literalList : List Token → Option (List Literal)
  | [] => some []
  | [t] => t.literal.map fun x => [x]
  | t :: .comma :: u :: rest =>
    match t.literal, literalList (u :: rest) with
    | some x, some xs => some (x :: xs)
    | _, _ => none
  | _ :: _ :: _ => none

/-- The operands of CHUNKCHECK after the type: the bytes, and last the stored CRC. -/
def splitStored : List Literal → Option (List Literal × Nat)
  | [] => none
  | [.num n] => some ([], n)
  | [.quoted _] => none
  | x :: y :: rest => (splitStored (y :: rest)).map fun r => (x :: r.1, r.2)

/-- The statement of a mnemonic and its operands (R68 to R71). -/
def statement (m : List Char) (args : List Token) : Option Stmt :=
  if m = ['N', 'O', 'P'] then if args = [] then some .nop else none
  else if m = ['I', 'N', 'I', 'T'] then if args = [] then some .init else none
  else if m = ['R', 'E', 'A', 'D'] then if args = [] then some .read else none
  else if m = ['S', 'T', 'A', 'T', 'U', 'S'] then if args = [] then some .status else none
  else if m = ['C', 'O', 'U', 'N', 'T'] then if args = [] then some .count else none
  else if m = ['F', 'E', 'E', 'D', 'S', 'T', 'R'] then
    match args with
    | [.text cs] => some (.feedstr cs)
    | _ => none
  else
    match literalList args with
    | none => none
    | some xs =>
      if m = ['F', 'E', 'E', 'D', 'B', 'Y', 'T', 'E', 'S'] then some (.feedbytes xs)
      else
        match xs with
        | [] => none
        | x :: more =>
          if m = ['C', 'H', 'U', 'N', 'K', 'C', 'R', 'C'] then some (.chunkcrc x more)
          else if m = ['C', 'H', 'U', 'N', 'K', 'C', 'H', 'E', 'C', 'K'] then
            (splitStored more).map fun r => .chunkcheck x r.1 r.2
          else if more ≠ [] then none
          else if m = ['F', 'E', 'E', 'D', '8'] then some (.feed8 x)
          else if m = ['F', 'E', 'E', 'D', '3', '2'] then some (.feed32 x)
          else
            match x with
            | .quoted _ => none
            | .num n =>
              if m = ['C', 'H', 'E', 'C', 'K'] then some (.check n)
              else if m = ['R', 'S', 'V', 'D'] then some (.rsvd n)
              else none

/-- One line of text: `none` is an assembly error, `some none` a line with no statement (blank, or a comment alone). -/
def parseLine (cs : List Char) : Option (Option Stmt) :=
  match lexLine .between cs with
  | none => none
  | some [] => some none
  | some (.name m :: args) => (statement m args).map some
  | some (_ :: _) => none

/-- The command words of one line of text, or an assembly error. -/
def assembleLine (cs : List Char) : Option (List CmdWord) :=
  match parseLine cs with
  | none => none
  | some none => some []
  | some (some st) => st.assemble

end Sys2Proof.Machine
end

