-- ==== Sys2Proof/Machine/Port.lean ====
section
/-! DEFINITION. The signal level (R67, R150 to R152, R155 to R157): one rising edge of `clk` with the values sampled on the input wires. The same state and the same
`exec` as the transaction level, with the handshake, the spacing of acceptances and the response latency around them. -/

namespace Sys2Proof.Machine

/-- What a rising edge samples on the input wires (R67). -/
structure PortInput where
  /-- `rst`, active high. -/
  rst : Bool
  /-- `cmd_valid`. -/
  cmdValid : Bool
  /-- `cmd_op`. -/
  cmdOp : Opcode
  /-- `cmd_data`. -/
  cmdData : Word
deriving DecidableEq, Repr

/-- The command word on the wires: `(cmd_op, cmd_data)` (R67). -/
def PortInput.word (inp : PortInput) : CmdWord := cmdWord inp.cmdOp inp.cmdData

/-- How many edges are still to pass before CMD_INTERVAL allows the next acceptance (R67). -/
def Port.spacingLeft (p : Port) : Nat :=
  match p.sinceAccept with
  | none => 0
  | some k => Config.cmdInterval - k

/-- For how many edges more `cmd_ready` stays 0, if no acceptance or reset comes: as the spacing of acceptances asks (R67), and as the implementation's
own finite wait lasts (R152, U8), the longer of the two. -/
def Port.lowFor (p : Port) : Nat := max p.spacingLeft (Config.readyDelay p.waits - p.waited)

/-- The wire `cmd_ready` (R67): the engine holds it low as needed to keep the spacing, and while its own wait lasts. -/
def State.cmdReady (s : State) : Bool := decide (s.port.lowFor = 0)

/-- The wire `rsp_valid` (R67). -/
def State.rspValid (s : State) : Bool := s.port.rsp.isSome

/-- The wire `rsp_data`: the response where `rsp_valid = 1`, any value where it is 0 (R67, U6). -/
def State.rspData (s : State) : Word := s.port.rsp.getD (Config.freeRspData s.port.cycle)

/-- The edge accepts a command: `cmd_valid = 1`, `cmd_ready = 1` and `rst = 0` (R67). -/
def State.accepts (s : State) (inp : PortInput) : Bool := inp.cmdValid && s.cmdReady && !inp.rst

/-- The port's counters after an edge without reset. -/
def Port.tick (p : Port) (accepted : Bool) : Port :=
  { p with
    sinceAccept := if accepted then some 1 else p.sinceAccept.map (· + 1)
    waited := if accepted then 0 else p.waited + 1
    waits := if accepted then p.waits + 1 else p.waits
    cycle := p.cycle + 1 }

/-- The port's counters after a reset edge: nothing on the response wires (R151), a new wait for `cmd_ready` (R152). The edges since the last
acceptance are counted on: R67 spaces acceptances with no exception for a reset between them. -/
def Port.resetEdge (p : Port) : Port :=
  { sinceAccept := p.sinceAccept.map (· + 1), waited := 0, waits := p.waits + 1, rsp := none, cycle := p.cycle + 1 }

/-- One edge more for a response in flight. -/
def Response.older (r : Response) : Response := { r with age := r.age + 1 }

/-- The response wires of the coming cycle: the oldest response, once RSP_LATENCY edges have passed, for one cycle (R67). -/
def State.emit (s : State) : State :=
  match s.inFlight with
  | [] => { s with port := { s.port with rsp := none } }
  | r :: rest =>
    if Config.rspLatency ≤ r.age then
      { s with inFlight := rest, delivered := s.delivered ++ [r.value], port := { s.port with rsp := some r.value } }
    else { s with port := { s.port with rsp := none } }

/-- Everything an edge does beside the command: the counters, the ages and the response wires. -/
def State.tick (s : State) (accepted : Bool) : State :=
  State.emit { s with inFlight := s.inFlight.map Response.older, port := s.port.tick accepted }

/-- One rising edge of `clk` (R67, R150, R151). -/
def edge (inp : PortInput) (s : State) : Host.Outcome State Fault Refusal :=
  if inp.rst then .next { s.resetNow with port := s.port.resetEdge }
  else if s.accepts inp then
    match exec (decode inp.word) s with
    | .next t => .next (t.tick true)
    | .fault f => .fault f
    | .refused r => .refused r
  else .next (s.tick false)

/-- Rising edges one after another. -/
def runEdges : List PortInput → State → Host.Outcome State Fault Refusal
  | [], s => .next s
  | inp :: rest, s =>
    match edge inp s with
    | .next t => runEdges rest t
    | .fault f => .fault f
    | .refused r => .refused r

/-- What the edge is at the transaction level: a reset, or the accepted command and then the delivery of the response that the edge
puts on the wires. -/
def edgeEvents (inp : PortInput) (s : State) : List PortEvent :=
  if inp.rst then [.reset]
  else (if s.accepts inp then [.command inp.word] else []) ++
    (match edge inp s with
      | .next t => if t.rspValid then [.deliver] else []
      | .fault _ => []
      | .refused _ => [])

/-- The state without what only the signal level moves: the port's registers and the ages. -/
def State.untimed (s : State) : State :=
  { s with inFlight := s.inFlight.map (fun r => { r with age := 0 }), port := Port.reset }

end Sys2Proof.Machine
end

