-- ==== Sys2Proof/Machine/Platform.lean ====
section
/-! DEFINITION. Several engines (R52, R141): a platform of `N_INSTANCES` engines, each with its own state and its own port. `N_INSTANCES` is the length n,
an open parameter (R6, U7): a statement holds for every n. DESIGN CHOICE, log entry 11: the instances share the port's constants and free values of Config. -/

namespace Sys2Proof.Machine

/-- `N_INSTANCES` engines (R141). -/
abbrev Platform (n : Nat) := Vector State n

/-- What `f` does on one instance, the others held. -/
def Platform.on {n : Nat} (p : Platform n) (k : Fin n) (f : State → Host.Outcome State Fault Refusal) :
    Host.Outcome (Platform n) Fault Refusal :=
  match f p[k] with
  | .next t => .next (p.set k t)
  | .fault r => .fault r
  | .refused r => .refused r

/-- A command to one instance (R141). -/
def Platform.exec {n : Nat} (p : Platform n) (k : Fin n) (i : Instr) : Host.Outcome (Platform n) Fault Refusal :=
  p.on k (Sys2Proof.Machine.exec i)

/-- A step of one instance. -/
def Platform.step {n : Nat} (p : Platform n) (k : Fin n) : Host.Outcome (Platform n) Fault Refusal :=
  p.on k Sys2Proof.Machine.step

end Sys2Proof.Machine
end

