-- ==== Sys2Proof/Safety.lean ====
section
/-! DEFINITION. The terms the statements speak in: a safe run, the response table of R66, the message a run has fed (R9, R41), and the invariants. -/

namespace Sys2Proof.Machine

/-! ### Safe runs -/

/-- A run of n steps that meets no fault and no refusal (R130: every run is one). -/
def SafeFor (n : Nat) (s : State) : Prop := ∃ t, Sys2Proof.core.run n s = .next t

/-! ### Responses (R66) -/

/-- The response of each command, from R66's table, as a function of the record it finds. -/
def responseOf (i : Instr) (e : Engine) : Word :=
  match i with
  | .nop _ => 0#32
  | .init _ => 0#32
  | .feed8 _ _ => 0#32
  | .feed32 _ => 0#32
  | .read _ => e.crcReg ^^^ 0xFFFFFFFF#32
  | .check _ => e.crcReg ^^^ 0xFFFFFFFF#32
  | .status _ => statusWord e
  | .count _ => e.count
  | .reserved _ _ => 0#32

/-- The architectural record each command leaves, from the "State and flags written" line of its rule (R102 to R110). -/
def engineAfter (i : Instr) (e : Engine) : Engine :=
  match i with
  | .nop _ => e
  | .init _ => e.afterInit
  | .feed8 _ d => (e.feed [d]).advance 1
  | .feed32 v => (e.feed (wordBytes v)).advance 4
  | .read _ => e
  | .check v => e.compare v
  | .status _ => e
  | .count _ => e
  | .reserved _ _ => e.markIllegal

/-- All responses since the last reset edge, delivered or on their way, the oldest first. -/
def State.responses (s : State) : List Word := s.delivered ++ s.inFlight.map Response.value

/-- The state the command words leave when they are accepted one after another from reset (R156, R158). -/
def stateAfter (ws : List CmdWord) : State :=
  ws.foldl (fun s w => match exec (decode w) s with
    | .next t => t
    | .fault _ => s
    | .refused _ => s) State.reset

/-- The state agrees with this list of commands accepted since the last reset edge: the record they leave, and their responses in order (R156). -/
def AnswersFor (ws : List CmdWord) (s : State) : Prop :=
  s.engine = (stateAfter ws).engine ∧ s.responses = (stateAfter ws).responses

/-- The commands accepted since the last reset edge, after one more event. -/
def PortEvent.acceptedAfter (ws : List CmdWord) : PortEvent → List CmdWord
  | .command w => ws ++ [w]
  | .deliver => ws
  | .reset => []

/-- The commands accepted since the last reset edge, after the step that `s` takes. -/
def State.acceptedByStep (s : State) (ws : List CmdWord) : List CmdWord :=
  match s.events with
  | [] => ws
  | ev :: _ => ev.acceptedAfter ws

/-- The commands accepted since the last reset edge, after one rising edge. -/
def State.acceptedByEdge (s : State) (inp : PortInput) (ws : List CmdWord) : List CmdWord :=
  if inp.rst then [] else if s.accepts inp then ws ++ [inp.word] else ws

/-! ### What the next step is -/

/-- The step that `s` takes is a reset. -/
def State.nextIsReset (s : State) : Prop := ∃ rest, s.events = .reset :: rest

/-- The step that `s` takes is a command with one of these opcodes. -/
def State.nextIsCommand (s : State) (ops : List Opcode) : Prop := ∃ w rest, s.events = .command w :: rest ∧ opField w ∈ ops

/-- The reserved opcodes (R63). -/
def reservedOpcodes : List Opcode := [0x8, 0x9, 0xA, 0xB, 0xC, 0xD, 0xE, 0xF]

/-- FEED8 and FEED32. -/
def isFeed (i : Instr) : Bool := fedBytes i ≠ []

/-! ### The message (R9, R41) -/

/-- The message after one more command: INIT begins a new one, a FEED appends its bytes (R9, R41). -/
def messageAfter (i : Instr) (M : List Byte) : List Byte :=
  match i with
  | .nop _ => M
  | .init _ => []
  | .feed8 _ d => M ++ [d]
  | .feed32 v => M ++ wordBytes v
  | .read _ => M
  | .check _ => M
  | .status _ => M
  | .count _ => M
  | .reserved _ _ => M

/-- The message after the step that `s` takes. -/
def State.messageByStep (s : State) (M : List Byte) : List Byte :=
  match s.events with
  | [] => M
  | .command w :: _ => messageAfter (decode w) M
  | .deliver :: _ => M
  | .reset :: _ => []

/-- The record holds the CRC, the length and the wrap of this message (R28, R30, R85). -/
def Tracks (M : List Byte) (e : Engine) : Prop :=
  e.crcReg = acc crcInit M ∧ e.count = BitVec.ofNat 32 M.length ∧ e.wrap = decide (2 ^ 32 ≤ M.length)

/-- A mismatch is only ever reported by a CHECK that has executed (R25, R26, R134). -/
def MismatchNeedsCheck (e : Engine) : Prop := e.mismatch = true → e.checked = true

/-! ### The signal level -/

/-- The port between two edges (R67): responses in flight stand in the order of acceptance, CMD_INTERVAL edges or more apart, each younger than
RSP_LATENCY, and none accepted later than the port's count since the last acceptance says. -/
def PortInv (s : State) : Prop :=
  (s.inFlight.map Response.age).Pairwise (fun older younger => younger + Config.cmdInterval ≤ older) ∧
  (∀ r ∈ s.inFlight, 1 ≤ r.age ∧ r.age < Config.rspLatency ∧ ∃ k, s.port.sinceAccept = some k ∧ k ≤ r.age)

end Sys2Proof.Machine
end

