-- ==== Sys2Proof/Certificates/Slice0/Obligations.lean ====
section
/-! DEFINITION. The statements about the engine, from the numbered rules of spec/. The engine has no memory (R40): a statement that gives a command's whole next state
is its frame too, for every part of the state that it does not name as changed. -/

open Sys2Proof Sys2Proof.Machine

/-! ### Reset (R32, R150, R151) -/

/-- (R32): the values after reset, which are the values INIT leaves. -/
def Obligations.ResetValues : Prop :=
  State.reset.engine.crcReg = 0xFFFFFFFF#32 ∧ State.reset.engine.count = 0x00000000#32 ∧
  State.reset.engine.mismatch = false ∧ State.reset.engine.checked = false ∧
  State.reset.engine.illegal = false ∧ State.reset.engine.wrap = false ∧
  ∀ (ign : Word) (s : State), ∃ t, exec (.init ign) s = .next t ∧ t.engine = State.reset.engine

/-- (R151): a reset falls between two commands. It gives the record its reset values and discards every response not yet delivered; the rest of the input
stays. Two clauses are no rule of the spec but the model's choices: that the observation of delivered responses begins anew, log entry 2, and that the
transaction level leaves the port's registers as they are, log entry 12. -/
def Obligations.ResetBetweenCommands : Prop :=
  ∀ (s : State) (rest : List PortEvent), s.events = .reset :: rest →
    step s = .next { s with engine := State.reset.engine, inFlight := [], delivered := [], events := rest }

/-! ### Each command's whole effect (R102 to R110) -/

/-- (R102): NOP answers 0 and changes nothing else. -/
def Obligations.NopAnswersZero : Prop :=
  ∀ (ign : Word) (s : State),
    exec (.nop ign) s = .next { s with inFlight := s.inFlight ++ [{ value := 0#32, age := 0 }] }

/-- (R103): INIT writes the whole record, whatever it held, answers 0 and changes nothing else. -/
def Obligations.InitWritesWholeRecord : Prop :=
  ∀ (ign : Word) (s : State),
    exec (.init ign) s = .next { s with
      engine := { crcReg := 0xFFFFFFFF#32, count := 0#32, mismatch := false, checked := false, illegal := false, wrap := false }
      inFlight := s.inFlight ++ [{ value := 0#32, age := 0 }] }

/-- (R104, R101): FEED8 takes one byte into `crc_reg` by the byte step, adds 1 to `count` modulo 2^32, sets WRAP exactly where `count` was 0xFFFFFFFF, answers
0 and changes nothing else. -/
def Obligations.Feed8AppendsOneByte : Prop :=
  ∀ (ign : BitVec 24) (d : Byte) (s : State),
    exec (.feed8 ign d) s = .next { s with
      engine := { s.engine with
        crcReg := step8 s.engine.crcReg d
        count := s.engine.count + 1#32
        wrap := s.engine.wrap || s.engine.count == 0xFFFFFFFF#32 }
      inFlight := s.inFlight ++ [{ value := 0#32, age := 0 }] }

/-- (R105, R101): FEED32 takes four bytes into `crc_reg`, the most significant first, adds 4 to `count` modulo 2^32, sets WRAP exactly where the sum passes
0xFFFFFFFF, answers 0 and changes nothing else. -/
def Obligations.Feed32AppendsFourBytes : Prop :=
  ∀ (v : Word) (s : State),
    exec (.feed32 v) s = .next { s with
      engine := { s.engine with
        crcReg := step8 (step8 (step8 (step8 s.engine.crcReg (v.extractLsb' 24 8)) (v.extractLsb' 16 8)) (v.extractLsb' 8 8)) (v.extractLsb' 0 8)
        count := s.engine.count + 4#32
        wrap := s.engine.wrap || decide (0xFFFFFFFF < s.engine.count.toNat + 4) }
      inFlight := s.inFlight ++ [{ value := 0#32, age := 0 }] }

/-- (R106): READ answers the final value and changes nothing else. -/
def Obligations.ReadAnswersFinalValue : Prop :=
  ∀ (ign : Word) (s : State),
    exec (.read ign) s = .next { s with
      inFlight := s.inFlight ++ [{ value := s.engine.crcReg ^^^ 0xFFFFFFFF#32, age := 0 }] }

/-- (R107): CHECK sets MISMATCH where the final value differs from its operand and clears it where they are equal, sets CHECKED, answers the
final value and changes nothing else. -/
def Obligations.CheckComparesAndAnswers : Prop :=
  ∀ (v : Word) (s : State),
    exec (.check v) s = .next { s with
      engine := { s.engine with
        mismatch := decide (s.engine.crcReg ^^^ 0xFFFFFFFF#32 ≠ v)
        checked := true }
      inFlight := s.inFlight ++ [{ value := s.engine.crcReg ^^^ 0xFFFFFFFF#32, age := 0 }] }

/-- (R108, R29): STATUS answers the word whose bits 3 to 0 are WRAP, ILLEGAL, CHECKED, MISMATCH and whose other bits are 0, and changes
nothing else. -/
def Obligations.StatusAnswersFlags : Prop :=
  ∀ (ign : Word) (s : State), ∃ v : Word,
    exec (.status ign) s = .next { s with inFlight := s.inFlight ++ [{ value := v, age := 0 }] } ∧
    v.getLsbD 0 = s.engine.mismatch ∧ v.getLsbD 1 = s.engine.checked ∧
    v.getLsbD 2 = s.engine.illegal ∧ v.getLsbD 3 = s.engine.wrap ∧
    ∀ i, 4 ≤ i → v.getLsbD i = false

/-- (R109): COUNT answers `count` and changes nothing else. -/
def Obligations.CountAnswersCount : Prop :=
  ∀ (ign : Word) (s : State),
    exec (.count ign) s = .next { s with inFlight := s.inFlight ++ [{ value := s.engine.count, age := 0 }] }

/-- (R110, R132): a reserved opcode sets ILLEGAL, answers 0 and changes nothing else. -/
def Obligations.ReservedSetsIllegalOnly : Prop :=
  ∀ (op : Opcode) (ign : Word) (s : State),
    exec (.reserved op ign) s = .next { s with
      engine := { s.engine with illegal := true }
      inFlight := s.inFlight ++ [{ value := 0#32, age := 0 }] }

/-- (R101): the count advance by 1 or 4: the sum modulo 2^32, WRAP set by the carry and otherwise kept, nothing else written. -/
def Obligations.CountAdvanceIsModular : Prop :=
  ∀ (e : Engine) (k : Nat), k = 1 ∨ k = 4 →
    (e.advance k).count.toNat = (e.count.toNat + k) % 2 ^ 32 ∧
    (e.advance k).wrap = (e.wrap || decide (2 ^ 32 ≤ e.count.toNat + k)) ∧
    (e.advance k).crcReg = e.crcReg ∧ (e.advance k).mismatch = e.mismatch ∧
    (e.advance k).checked = e.checked ∧ (e.advance k).illegal = e.illegal

/-- (R49): NOP, READ, STATUS and COUNT leave the record and answer the same when repeated; INIT twice and CHECK twice with one operand leave the record that once leaves; a FEED
is not idempotent: it never leaves the record as it was. -/
def Obligations.RepeatedCommands : Prop :=
  (∀ (i : Instr) (s : State), i.opcode ∈ [0x0#4, 0x4#4, 0x6#4, 0x7#4] → i.wellFormed = true → ∃ t u v,
    exec i s = .next t ∧ exec i t = .next u ∧ t.engine = s.engine ∧ u.engine = s.engine ∧
    u.responses = s.responses ++ [v, v]) ∧
  (∀ (i : Instr) (s : State), i.opcode ∈ [0x1#4, 0x5#4] → ∃ t u,
    exec i s = .next t ∧ exec i t = .next u ∧ u.engine = t.engine) ∧
  (∀ (i : Instr) (s : State), i.opcode ∈ [0x2#4, 0x3#4] → i.wellFormed = true → ∃ t,
    exec i s = .next t ∧ t.engine ≠ s.engine)

/-! ### The step -/

/-- (R50, R100): where a command word stands first at the port, the step executes the command it decodes to, on the state without that event. -/
def Obligations.StepRunsDecodedCommand : Prop :=
  ∀ (s : State) (w : CmdWord) (rest : List PortEvent), s.events = .command w :: rest →
    step s = exec (decode w) { s with events := rest }

/-- (the model's input, log entry 1): a word placed by `withFetchWord` is the next command, and the state it runs on is the state it was placed in. -/
def Obligations.PlacedWordRunsNext : Prop :=
  ∀ (s : State) (w : Nat), w < 2 ^ 36 →
    step (s.withFetchWord 36 w) = exec (decode (BitVec.ofNat 36 w)) s ∧
    step (s.withFetchWord 40 w) = exec (decode (BitVec.ofNat 36 w)) s ∧
    decodeTableWord 36 w = some (decode (BitVec.ofNat 36 w)) ∧
    decodeTableWord 40 w = some (decode (BitVec.ofNat 36 w))

/-- (R143): with nothing presented, the state is held. -/
def Obligations.IdleHoldsState : Prop :=
  ∀ s : State, s.events = [] → step s = .next s

/-- (R67): the delivery of a response takes the oldest one and changes nothing else but the observation; responses are never reordered. That delivery is an event of its
own, and that it appends to the model's own record of delivered responses, is the model's choice, log entry 2. -/
def Obligations.DeliveryTakesOldest : Prop :=
  ∀ (s : State) (rest : List PortEvent) (r : Response) (later : List Response),
    s.events = .deliver :: rest → s.inFlight = r :: later →
    step s = .next { s with inFlight := later, delivered := s.delivered ++ [r.value], events := rest }

/-- (R66): every command, from every state, completes with exactly one response, the one of R66's table. -/
def Obligations.OneResponsePerCommand : Prop :=
  ∀ (i : Instr) (s : State), ∃ t,
    exec i s = .next t ∧ t.responses = s.responses ++ [responseOf i s.engine]

/-- (R130): no run, of any length, from any state and with any input, meets a fault or a refusal. -/
def Obligations.NoRunStops : Prop :=
  ∀ (n : Nat) (s : State), SafeFor n s

/-- (R21, R25, R26, R27, R28, R30): only these steps write each part of the record. -/
def Obligations.WritersOfTheRecord : Prop :=
  ∀ s t : State, step s = .next t →
    (t.engine.crcReg ≠ s.engine.crcReg → s.nextIsReset ∨ s.nextIsCommand [0x1, 0x2, 0x3]) ∧
    (t.engine.count ≠ s.engine.count → s.nextIsReset ∨ s.nextIsCommand [0x1, 0x2, 0x3]) ∧
    (t.engine.mismatch ≠ s.engine.mismatch → s.nextIsReset ∨ s.nextIsCommand [0x1, 0x5]) ∧
    (s.engine.checked = false → t.engine.checked = true → s.nextIsCommand [0x5]) ∧
    (s.engine.checked = true → t.engine.checked = false → s.nextIsReset ∨ s.nextIsCommand [0x1]) ∧
    (s.engine.illegal = false → t.engine.illegal = true → s.nextIsCommand reservedOpcodes) ∧
    (s.engine.illegal = true → t.engine.illegal = false → s.nextIsReset ∨ s.nextIsCommand [0x1]) ∧
    (s.engine.wrap = false → t.engine.wrap = true → s.nextIsCommand [0x2, 0x3]) ∧
    (s.engine.wrap = true → t.engine.wrap = false → s.nextIsReset ∨ s.nextIsCommand [0x1])

/-! ### Encoding (R60 to R65) -/

/-- (R63, the table's encodings): words written out from the encodings decode to the commands they stand for. -/
def Obligations.WordsDecodeAsTheTableSays : Prop :=
  decode 0x0DEADBEEF#36 = .nop 0xDEADBEEF#32 ∧
  decode 0x100000000#36 = .init 0#32 ∧
  decode 0x2FFFFFF38#36 = .feed8 0xFFFFFF#24 0x38#8 ∧
  decode 0x349454E44#36 = .feed32 0x49454E44#32 ∧
  decode 0x412345678#36 = .read 0x12345678#32 ∧
  decode 0x5AE426082#36 = .check 0xAE426082#32 ∧
  decode 0x6FFFFFFFF#36 = .status 0xFFFFFFFF#32 ∧
  decode 0x700000000#36 = .count 0#32 ∧
  decode 0x800000000#36 = .reserved 0x8#4 0#32 ∧
  decode 0xF12345678#36 = .reserved 0xF#4 0x12345678#32

/-- (R60, R61, R63): decoding and encoding are inverse to each other, over all 2^36 words and all well-formed commands; every word decodes to a well-formed
command. No bit is dropped. -/
def Obligations.DecodeEncodeInverse : Prop :=
  (∀ w : CmdWord, (decode w).wellFormed = true ∧ encode (decode w) = w) ∧
  (∀ i : Instr, i.wellFormed = true → decode (encode i) = i)

/-- (R63): every word is covered by exactly one row of the opcode table, the row of the command it decodes to. -/
def Obligations.ExactlyOneRowCovers : Prop :=
  ∀ (w : CmdWord) (k : Nat), k < 9 →
    (opcodeTable[k]?.map fun r => r.covers w) = some (decide (k = (decode w).rowIndex))

/-- (R61): two words with the same opcode that agree on the operand bits their format reads have the same effect on every state. -/
def Obligations.IgnoredBitsHaveNoEffect : Prop :=
  ∀ (w w' : CmdWord) (s : State), opField w = opField w' →
    operandField w &&& (formatOf (opField w)).readMask = operandField w' &&& (formatOf (opField w)).readMask →
    ∃ t, exec (decode w) s = .next t ∧ exec (decode w') s = .next t

/-! ### The datapath (R80 to R91) -/

/-- (R81, R82): the rules' own examples of the bit step and the byte step. -/
def Obligations.DatapathExamples : Prop :=
  step1 0xFFFFFFFF#32 false = 0x92477CDF#32 ∧ step1 0xFFFFFFFF#32 true = 0x7FFFFFFF#32 ∧
  step1 0x00000000#32 true = 0xEDB88320#32 ∧ step1 0x00000001#32 true = 0x00000000#32 ∧
  step1 0x00000000#32 false = 0x00000000#32 ∧
  step8 0xFFFFFFFF#32 0x00#8 = 0x2DFD1072#32 ∧ step8 0xFFFFFFFF#32 0xFF#8 = 0x00FFFFFF#32 ∧
  step8 0x00000000#32 0x01#8 = 0x77073096#32 ∧ step8 0x00000000#32 0x80#8 = 0xEDB88320#32 ∧
  step8 0x12345678#32 0xAB#8 = 0x1FC8B738#32 ∧ step8 0xDEADBEEF#32 0x00#8 = 0x306B5257#32

/-- (R83): the table form is the byte step, and the table's entries are the byte step from 0. -/
def Obligations.TableFormIsByteStep : Prop :=
  (∀ i : Byte, tableEntry i = step8 0x00000000#32 i) ∧
  (∀ (c : Word) (d : Byte), step8 c d = tableEntry (c.extractLsb' 0 8 ^^^ d) ^^^ (c >>> 8))

/-- (R84): the 32 byte-parallel equations give the byte step. -/
def Obligations.ParallelEquationsAreByteStep : Prop :=
  ∀ (c : Word) (d : Byte), step8Parallel c d = step8 c d

/-- (R90): the MSB-first register is the reflected register reversed, at every point of every message, and its result is the CRC. -/
def Obligations.MsbFirstRegisterIsReversed : Prop :=
  (∀ (r : Word) (M : List Byte), acc r.reverse M = (msbAcc r M).reverse) ∧
  (∀ M : List Byte, (msbAcc 0xFFFFFFFF#32 M).reverse ^^^ 0xFFFFFFFF#32 = crc32 M)

/-- (R89): composition, affinity in the register, and split. -/
def Obligations.StreamFoldLaws : Prop :=
  (∀ (c : Word) (M N : List Byte), acc c (M ++ N) = acc (acc c M) N) ∧
  (∀ (c c2 : Word) (M : List Byte), acc (c ^^^ c2) M = acc c M ^^^ acc c2 (List.replicate M.length 0x00#8)) ∧
  (∀ (c : Word) (M : List Byte), acc c M = acc c (List.replicate M.length 0x00#8) ^^^ acc 0x00000000#32 M)

/-- (R80): the two forms of the polynomial are each other's reversal, and the check value is the catalogue's. -/
def Obligations.ParameterSetAgrees : Prop :=
  crcPolyNormal.reverse = crcPoly ∧
  crc32 [0x31#8, 0x32#8, 0x33#8, 0x34#8, 0x35#8, 0x36#8, 0x37#8, 0x38#8, 0x39#8] = 0xCBF43926#32

/-- (R80, residue): after any message and its CRC fed least significant byte first, the register is 0xDEBB20E3. -/
def Obligations.ResidueAfterOwnCrc : Prop :=
  ∀ M : List Byte, acc crcInit (M ++ wordBytesLE (crc32 M)) = 0xDEBB20E3#32

/-- (R91): changing one byte of a message changes its CRC. -/
def Obligations.SingleByteChangeIsDetected : Prop :=
  ∀ (before after : List Byte) (d d' : Byte), d ≠ d' →
    crc32 (before ++ d :: after) ≠ crc32 (before ++ d' :: after)

/-- (R91): every error confined to a span of at most 32 consecutive message bits changes the CRC. -/
def Obligations.BurstOf32BitsIsDetected : Prop :=
  ∀ (M M' : List Byte) (before after span span' : List Bool),
    messageBits M = before ++ span ++ after → messageBits M' = before ++ span' ++ after →
    span.length = span'.length → span.length ≤ 32 → span ≠ span' →
    crc32 M ≠ crc32 M'

/-- (R91): CRC32 is one-to-one on the messages of one length of at most 4 bytes, and reaches every value on 4 bytes. -/
def Obligations.ShortMessagesAreDistinguished : Prop :=
  (∀ M M' : List Byte, M.length = M'.length → M.length ≤ 4 → crc32 M = crc32 M' → M = M') ∧
  (∀ v : Word, ∃ M : List Byte, M.length = 4 ∧ crc32 M = v)

/-- (R91): the rule's collision: two different messages with one CRC, so equal CRCs do not mean equal messages. -/
def Obligations.CollisionOfTheRule : Prop :=
  crc32 [0x68#8, 0x65#8, 0x6C#8, 0x6C#8, 0x6F#8] = 0x3610A686#32 ∧
  crc32 [0x29#8, 0x63#8, 0x1D#8, 0xB7#8, 0x6E#8] = 0x3610A686#32 ∧
  crc32 [0x74#8, 0x65#8, 0x58#8, 0x74#8, 0x68#8, 0x65#8, 0x6C#8, 0x6C#8, 0x6F#8] = 0xA3F69134#32 ∧
  crc32 [0x74#8, 0x65#8, 0x58#8, 0x74#8, 0x29#8, 0x63#8, 0x1D#8, 0xB7#8, 0x6E#8] = 0xA3F69134#32

/-! ### The byte stream -/

/-- (R46, R105): FEED32 leaves the record that FEED8 of its four bytes in order leaves. -/
def Obligations.Feed32IsFourFeed8 : Prop :=
  ∀ (v : Word) (g : BitVec 24) (s : State), ∃ t u,
    exec (.feed32 v) s = .next t ∧
    runInstrs [.feed8 g (v.extractLsb' 24 8), .feed8 g (v.extractLsb' 16 8), .feed8 g (v.extractLsb' 8 8), .feed8 g (v.extractLsb' 0 8)] s = .next u ∧
    t.engine = u.engine

/-- (R89, feed width): two sequences of FEED8 and FEED32 that feed the same bytes leave the same record, however the bytes are grouped. -/
def Obligations.FeedGroupingDoesNotMatter : Prop :=
  ∀ (is js : List Instr) (s : State), is.all isFeed = true → js.all isFeed = true →
    is.flatMap fedBytes = js.flatMap fedBytes →
    ∃ t u, runInstrs is s = .next t ∧ runInstrs js s = .next u ∧ t.engine = u.engine

/-- (R69): FEEDBYTES expands to floor(n/4) FEED32 commands, the k-th with the bytes 4k to 4k+3 big-endian, and then n mod 4 FEED8 commands for the
bytes left; run from any state, it feeds exactly its bytes: nothing but `crc_reg`, `count` and, by carry, WRAP changes, and every response is 0. -/
def Obligations.FeedBytesFeedsItsBytes : Prop :=
  (∀ M : List Byte, (feedBytes M).length = M.length / 4 + M.length % 4) ∧
  (∀ (M : List Byte) (k : Nat), k < M.length / 4 →
    (feedBytes M)[k]? = some (.feed32 (packBytes (M.getD (4 * k) 0) (M.getD (4 * k + 1) 0) (M.getD (4 * k + 2) 0) (M.getD (4 * k + 3) 0)))) ∧
  (∀ (M : List Byte) (j : Nat), j < M.length % 4 →
    (feedBytes M)[M.length / 4 + j]? = some (.feed8 0 (M.getD (4 * (M.length / 4) + j) 0))) ∧
  ∀ (M : List Byte) (s : State),
    runInstrs (feedBytes M) s = .next { s with
      engine := { s.engine with
        crcReg := acc s.engine.crcReg M
        count := s.engine.count + BitVec.ofNat 32 M.length
        wrap := s.engine.wrap || decide (2 ^ 32 ≤ s.engine.count.toNat + M.length) }
      inFlight := s.inFlight ++ List.replicate (M.length / 4 + M.length % 4) { value := 0#32, age := 0 } }

/-- (R71): CHUNKCRC and CHUNKCHECK expand as the rule says; from every state, the READ of CHUNKCRC answers the CRC of the type bytes and the data, and
bit 0 of the STATUS response of CHUNKCHECK is 1 exactly where that CRC differs from the stored one. -/
def Obligations.ChunkPseudoCommandsComputeAndCheck : Prop :=
  (∀ (type : Word) (data : List Byte), chunkCrc type data = [.init 0, .feed32 type] ++ feedBytes data ++ [.read 0]) ∧
  (∀ (type : Word) (data : List Byte) (stored : Word),
    chunkCheck type data stored = [.init 0, .feed32 type] ++ feedBytes data ++ [.check stored, .status 0]) ∧
  (∀ (type : Word) (data : List Byte) (s : State), ∃ t,
    runInstrs (chunkCrc type data) s = .next t ∧
    t.inFlight.getLast? = some { value := crc32 (wordBytes type ++ data), age := 0 }) ∧
  (∀ (type : Word) (data : List Byte) (stored : Word) (s : State), ∃ t v,
    runInstrs (chunkCheck type data stored) s = .next t ∧
    t.inFlight.getLast? = some { value := v, age := 0 } ∧
    (v.getLsbD 0 = true ↔ crc32 (wordBytes type ++ data) ≠ stored))

/-- (R91 with R71, R131): a chunk with one data byte changed fails the check against the CRC of the chunk as it was. -/
def Obligations.ChangedDataByteFailsCheck : Prop :=
  ∀ (type : Word) (before after : List Byte) (d d' : Byte) (s : State), d ≠ d' → ∃ t v,
    runInstrs (chunkCheck type (before ++ d' :: after) (crc32 (wordBytes type ++ (before ++ d :: after)))) s = .next t ∧
    t.engine.mismatch = true ∧
    t.inFlight.getLast? = some { value := v, age := 0 } ∧ v.getLsbD 0 = true

/-- (R44, R45): the wire bytes of a word are its bytes most significant first, and reading four bytes big-endian gives the word back. -/
def Obligations.BigEndianRoundTrip : Prop :=
  (∀ v : Word, ∃ b0 b1 b2 b3, wordBytes v = [b0, b1, b2, b3] ∧ packBytes b0 b1 b2 b3 = v) ∧
  (∀ b0 b1 b2 b3 : Byte, wordBytes (packBytes b0 b1 b2 b3) = [b0, b1, b2, b3])

/-! ### Invariants -/

/-- (R9, R28, R30, R85): a record that holds the CRC, the length and the wrap of a message still does after every step, for the message with
what the step fed. -/
def Obligations.RecordTracksMessage : Prop :=
  ∀ (M : List Byte) (s t : State), Tracks M s.engine → step s = .next t → Tracks (s.messageByStep M) t.engine

/-- (R87): the reset record holds the empty message, whose CRC is 0. -/
def Obligations.ResetTracksEmptyMessage : Prop :=
  Tracks [] State.reset.engine ∧ crc32 [] = 0x00000000#32

/-- (R30, R109): what `count` says of the message's length, without and with WRAP. -/
def Obligations.CountTellsLength : Prop :=
  ∀ (M : List Byte) (e : Engine), Tracks M e →
    (e.wrap = false → M.length = e.count.toNat) ∧
    (e.wrap = true → ∃ m, 1 ≤ m ∧ M.length = e.count.toNat + 2 ^ 32 * m)

/-- (R25, R26, R134): every step keeps it that MISMATCH is set only together with CHECKED. -/
def Obligations.MismatchOnlyWithChecked : Prop :=
  ∀ s t : State, MismatchNeedsCheck s.engine → step s = .next t → MismatchNeedsCheck t.engine

/-- (R32): the invariant of MismatchOnlyWithChecked holds at reset: MISMATCH is set there only if CHECKED is. -/
def Obligations.ResetMeetsMismatchNeedsCheck : Prop := MismatchNeedsCheck State.reset.engine

/-- (R155, R156): every step keeps it that the record and the responses since the last reset, delivered and in flight, are those of the commands accepted since
then, in order. That a reset also empties the record of delivered responses is the model's choice, log entry 2. -/
def Obligations.StepAnswersInOrder : Prop :=
  ∀ (ws : List CmdWord) (s t : State), AnswersFor ws s → step s = .next t → AnswersFor (s.acceptedByStep ws) t

/-! ### The signal level (R67, R150 to R157) -/

/-- (R150, R151): at an edge with `rst = 1`, whatever the other wires carry, the record takes its reset values, no command is accepted, nothing in flight is left
and no response is on the wires. The clause that the observation of delivered responses begins anew is no rule of the spec but the model's choice, log entry 2. -/
def Obligations.ResetEdgeResets : Prop :=
  ∀ (inp : PortInput) (s : State), inp.rst = true → ∃ t,
    edge inp s = .next t ∧ t.engine = State.reset.engine ∧ t.inFlight = [] ∧ t.delivered = [] ∧ t.rspValid = false ∧
    s.accepts inp = false

/-- (R67): at an edge without reset, the record is the accepted command's where `cmd_valid` and `cmd_ready` are both 1, and held where one is 0. -/
def Obligations.AcceptanceNeedsBothWires : Prop :=
  ∀ (inp : PortInput) (s : State), inp.rst = false → ∃ t,
    edge inp s = .next t ∧
    (inp.cmdValid = true → s.cmdReady = true → ∃ u, exec (decode inp.word) s = .next u ∧ t.engine = u.engine) ∧
    ((inp.cmdValid = false ∨ s.cmdReady = false) → t.engine = s.engine)

/-- (R67): every edge keeps the invariant of the port: responses in flight stand in the order of acceptance and CMD_INTERVAL edges or more apart, each younger than
RSP_LATENCY. How ages and edges are counted is log entry 4. -/
def Obligations.EdgeKeepsPortInvariant : Prop :=
  ∀ (inp : PortInput) (s t : State), PortInv s → edge inp s = .next t → PortInv t

/-- (R151): the port after reset has the invariant that every edge keeps, since nothing is in flight there. -/
def Obligations.ResetHasPortInvariant : Prop := PortInv State.reset

/-- (R67): the response of an accepted command is on the wires exactly RSP_LATENCY cycles after the acceptance: in flight in the cycles before (there are none where
RSP_LATENCY is 1), and then `rsp_valid = 1` with that response as `rsp_data`, whatever the input wires carry meanwhile but reset. How the cycles are counted is
log entry 4. -/
def Obligations.ResponseAfterLatency : Prop :=
  ∀ (inp : PortInput) (s t : State) (later : List PortInput), PortInv s →
    inp.rst = false → inp.cmdValid = true → s.cmdReady = true → edge inp s = .next t →
    (∀ x ∈ later, x.rst = false) → later.length + 1 ≤ Config.rspLatency →
    ∃ u, runEdges later t = .next u ∧
      if later.length + 1 = Config.rspLatency then
        u.rspValid = true ∧ u.rspData = responseOf (decode inp.word) s.engine
      else
        { value := responseOf (decode inp.word) s.engine, age := later.length + 1 } ∈ u.inFlight

/-- (R67): of two acceptances, the second is CMD_INTERVAL edges or more after the first, whatever the input wires carry between them, resets included. That acceptances at
the edges e and f are f - e edges apart, one more than the edges strictly between them, is the model's choice, log entry 4. -/
def Obligations.AcceptancesAreSpaced : Prop :=
  ∀ (first second : PortInput) (s t u : State) (between : List PortInput),
    s.accepts first = true → edge first s = .next t →
    runEdges between t = .next u → u.accepts second = true →
    Config.cmdInterval ≤ between.length + 1

/-- (R157, the spec's liveness assumption): a command held at the port while `rst = 0` is accepted as soon as the port's finite wait is over, and not before. How the wait is
made up of CMD_INTERVAL and the implementation's own cycles is the model's choice, log entry 5. -/
def Obligations.HeldCommandIsAccepted : Prop :=
  ∀ (inp : PortInput) (s : State), inp.rst = false → inp.cmdValid = true →
    ∃ t, runEdges (List.replicate s.port.lowFor inp) s = .next t ∧ t.accepts inp = true ∧
      ∀ m u, m < s.port.lowFor → runEdges (List.replicate m inp) s = .next u → u.accepts inp = false

/-- (R50, R151, R155): an edge is, at the transaction level, a reset, or the accepted command followed by the delivery of the response it puts on the wires: the machine of
`step` run over those events gives the edge's state, timing apart. The order of the command and the delivery within one edge is no rule of the spec but the model's
choice, log entry 12. -/
def Obligations.EdgeRefinesTransactions : Prop :=
  ∀ (inp : PortInput) (s t : State), edge inp s = .next t →
    Sys2Proof.core.run (edgeEvents inp s).length ((s.untimed).withEvents (edgeEvents inp s ++ s.events)) = .next t.untimed

/-- (R156): every edge keeps it that the record and the responses since the last reset edge, delivered first and then in flight, are those of the commands accepted since
then, in order; and an edge without reset delivers exactly what it puts on the wires. This is the inductive step of R156. `State.delivered`, which a reset empties, is the
model's own record, log entry 2, and the order of acceptance and delivery within an edge is log entry 12. -/
def Obligations.EdgeAnswersInOrder : Prop :=
  (∀ (ws : List CmdWord) (inp : PortInput) (s t : State), AnswersFor ws s → edge inp s = .next t →
    AnswersFor (s.acceptedByEdge inp ws) t) ∧
  (∀ (inp : PortInput) (s t : State), inp.rst = false → edge inp s = .next t →
    t.delivered = s.delivered ++ (if t.rspValid then [t.rspData] else []))

/-! ### Several engines (R141) -/

/-- (R141): a command to one of any number of engines completes there as on that engine alone, and leaves every other engine as it was. -/
def Obligations.EnginesShareNoState : Prop :=
  ∀ (n : Nat) (p : Platform n) (k : Fin n) (i : Instr), ∃ q : Platform n,
    p.exec k i = .next q ∧ exec i p[k] = .next q[k] ∧ ∀ j : Fin n, j ≠ k → q[j] = p[j]

/-! ### The assembler (R68) -/

/-- (R68): a statement assembles exactly where every value is in the range its command takes; a value outside is an error. That a quoted literal with a non-ASCII
character counts as out of range is the model's choice, log entry 9. -/
def Obligations.AssemblesExactlyInRange : Prop :=
  ∀ st : Stmt, st.assemble.isSome = st.inRange

/-- (R68): values are assembled whole, never truncated, and a command without operand has operand field 0. -/
def Obligations.AssembledWordsCarryTheirValues : Prop :=
  (∀ n, n ≤ 255 → (Stmt.feed8 (.num n)).assemble = some [cmdWord 0x2#4 (BitVec.ofNat 32 n)]) ∧
  (∀ n, n ≤ 0xFFFFFFFF → (Stmt.feed32 (.num n)).assemble = some [cmdWord 0x3#4 (BitVec.ofNat 32 n)]) ∧
  (∀ n, n ≤ 0xFFFFFFFF → (Stmt.check n).assemble = some [cmdWord 0x5#4 (BitVec.ofNat 32 n)]) ∧
  (∀ op, 8 ≤ op → op ≤ 15 → (Stmt.rsvd op).assemble = some [cmdWord (BitVec.ofNat 4 op) 0#32]) ∧
  Stmt.nop.assemble = some [cmdWord 0x0#4 0#32] ∧ Stmt.init.assemble = some [cmdWord 0x1#4 0#32] ∧
  Stmt.read.assemble = some [cmdWord 0x4#4 0#32] ∧ Stmt.status.assemble = some [cmdWord 0x6#4 0#32] ∧
  Stmt.count.assemble = some [cmdWord 0x7#4 0#32]
end

