-- ==== Sys2Proof/Laws/State.lean ====
section
/-! SUPPORT. One lemma per field per update of the state and of the record, true by rfl, so that no proof unfolds a record update. -/

namespace Sys2Proof.Machine

@[simp] theorem State.withEngine_engine (s : State) (e : Engine) : (s.withEngine e).engine = e := rfl
@[simp] theorem State.withEngine_inFlight (s : State) (e : Engine) : (s.withEngine e).inFlight = s.inFlight := rfl
@[simp] theorem State.withEngine_delivered (s : State) (e : Engine) : (s.withEngine e).delivered = s.delivered := rfl
@[simp] theorem State.withEngine_port (s : State) (e : Engine) : (s.withEngine e).port = s.port := rfl
@[simp] theorem State.withEngine_events (s : State) (e : Engine) : (s.withEngine e).events = s.events := rfl

@[simp] theorem State.respond_engine (s : State) (v : Word) : (s.respond v).engine = s.engine := rfl
@[simp] theorem State.respond_inFlight (s : State) (v : Word) : (s.respond v).inFlight = s.inFlight ++ [{ value := v, age := 0 }] := rfl
@[simp] theorem State.respond_delivered (s : State) (v : Word) : (s.respond v).delivered = s.delivered := rfl
@[simp] theorem State.respond_port (s : State) (v : Word) : (s.respond v).port = s.port := rfl
@[simp] theorem State.respond_events (s : State) (v : Word) : (s.respond v).events = s.events := rfl

@[simp] theorem State.resetNow_engine (s : State) : (s.resetNow).engine = Engine.reset := rfl
@[simp] theorem State.resetNow_inFlight (s : State) : (s.resetNow).inFlight = [] := rfl
@[simp] theorem State.resetNow_delivered (s : State) : (s.resetNow).delivered = [] := rfl
@[simp] theorem State.resetNow_port (s : State) : (s.resetNow).port = s.port := rfl
@[simp] theorem State.resetNow_events (s : State) : (s.resetNow).events = s.events := rfl

@[simp] theorem State.present_engine (s : State) (w : CmdWord) : (s.present w).engine = s.engine := rfl
@[simp] theorem State.present_inFlight (s : State) (w : CmdWord) : (s.present w).inFlight = s.inFlight := rfl
@[simp] theorem State.present_delivered (s : State) (w : CmdWord) : (s.present w).delivered = s.delivered := rfl
@[simp] theorem State.present_port (s : State) (w : CmdWord) : (s.present w).port = s.port := rfl
@[simp] theorem State.present_events (s : State) (w : CmdWord) : (s.present w).events = .command w :: s.events := rfl

@[simp] theorem State.withEvents_engine (s : State) (evs : List PortEvent) : (s.withEvents evs).engine = s.engine := rfl
@[simp] theorem State.withEvents_inFlight (s : State) (evs : List PortEvent) : (s.withEvents evs).inFlight = s.inFlight := rfl
@[simp] theorem State.withEvents_delivered (s : State) (evs : List PortEvent) : (s.withEvents evs).delivered = s.delivered := rfl
@[simp] theorem State.withEvents_port (s : State) (evs : List PortEvent) : (s.withEvents evs).port = s.port := rfl
@[simp] theorem State.withEvents_events (s : State) (evs : List PortEvent) : (s.withEvents evs).events = evs := rfl

@[simp] theorem State.untimed_engine (s : State) : (s.untimed).engine = s.engine := rfl
@[simp] theorem State.untimed_inFlight (s : State) : (s.untimed).inFlight = s.inFlight.map (fun r => { r with age := 0 }) := rfl
@[simp] theorem State.untimed_delivered (s : State) : (s.untimed).delivered = s.delivered := rfl
@[simp] theorem State.untimed_port (s : State) : (s.untimed).port = Port.reset := rfl
@[simp] theorem State.untimed_events (s : State) : (s.untimed).events = s.events := rfl

@[simp] theorem Engine.advance_crcReg (e : Engine) (k : Nat) : (e.advance k).crcReg = e.crcReg := rfl
@[simp] theorem Engine.advance_count (e : Engine) (k : Nat) : (e.advance k).count = countLow e.count k := rfl
@[simp] theorem Engine.advance_mismatch (e : Engine) (k : Nat) : (e.advance k).mismatch = e.mismatch := rfl
@[simp] theorem Engine.advance_checked (e : Engine) (k : Nat) : (e.advance k).checked = e.checked := rfl
@[simp] theorem Engine.advance_illegal (e : Engine) (k : Nat) : (e.advance k).illegal = e.illegal := rfl
@[simp] theorem Engine.advance_wrap (e : Engine) (k : Nat) : (e.advance k).wrap = (e.wrap || countCarry e.count k) := rfl

@[simp] theorem Engine.feed_crcReg (e : Engine) (bytes : List Byte) : (e.feed bytes).crcReg = acc e.crcReg bytes := rfl
@[simp] theorem Engine.feed_count (e : Engine) (bytes : List Byte) : (e.feed bytes).count = e.count := rfl
@[simp] theorem Engine.feed_mismatch (e : Engine) (bytes : List Byte) : (e.feed bytes).mismatch = e.mismatch := rfl
@[simp] theorem Engine.feed_checked (e : Engine) (bytes : List Byte) : (e.feed bytes).checked = e.checked := rfl
@[simp] theorem Engine.feed_illegal (e : Engine) (bytes : List Byte) : (e.feed bytes).illegal = e.illegal := rfl
@[simp] theorem Engine.feed_wrap (e : Engine) (bytes : List Byte) : (e.feed bytes).wrap = e.wrap := rfl

@[simp] theorem Engine.compare_crcReg (e : Engine) (v : Word) : (e.compare v).crcReg = e.crcReg := rfl
@[simp] theorem Engine.compare_count (e : Engine) (v : Word) : (e.compare v).count = e.count := rfl
@[simp] theorem Engine.compare_mismatch (e : Engine) (v : Word) : (e.compare v).mismatch = mismatchOf e.crcReg v := rfl
@[simp] theorem Engine.compare_checked (e : Engine) (v : Word) : (e.compare v).checked = true := rfl
@[simp] theorem Engine.compare_illegal (e : Engine) (v : Word) : (e.compare v).illegal = e.illegal := rfl
@[simp] theorem Engine.compare_wrap (e : Engine) (v : Word) : (e.compare v).wrap = e.wrap := rfl

@[simp] theorem Engine.markIllegal_crcReg (e : Engine) : (e.markIllegal).crcReg = e.crcReg := rfl
@[simp] theorem Engine.markIllegal_count (e : Engine) : (e.markIllegal).count = e.count := rfl
@[simp] theorem Engine.markIllegal_mismatch (e : Engine) : (e.markIllegal).mismatch = e.mismatch := rfl
@[simp] theorem Engine.markIllegal_checked (e : Engine) : (e.markIllegal).checked = e.checked := rfl
@[simp] theorem Engine.markIllegal_illegal (e : Engine) : (e.markIllegal).illegal = true := rfl
@[simp] theorem Engine.markIllegal_wrap (e : Engine) : (e.markIllegal).wrap = e.wrap := rfl

@[simp] theorem Engine.afterInit_crcReg (e : Engine) : (e.afterInit).crcReg = crcInit := rfl
@[simp] theorem Engine.afterInit_count (e : Engine) : (e.afterInit).count = 0#32 := rfl
@[simp] theorem Engine.afterInit_mismatch (e : Engine) : (e.afterInit).mismatch = false := rfl
@[simp] theorem Engine.afterInit_checked (e : Engine) : (e.afterInit).checked = false := rfl
@[simp] theorem Engine.afterInit_illegal (e : Engine) : (e.afterInit).illegal = false := rfl
@[simp] theorem Engine.afterInit_wrap (e : Engine) : (e.afterInit).wrap = false := rfl

@[simp] theorem Port.tick_sinceAccept (p : Port) (a : Bool) :
    (p.tick a).sinceAccept = if a then some 1 else p.sinceAccept.map (· + 1) := rfl
@[simp] theorem Port.tick_waited (p : Port) (a : Bool) : (p.tick a).waited = if a then 0 else p.waited + 1 := rfl
@[simp] theorem Port.tick_waits (p : Port) (a : Bool) : (p.tick a).waits = if a then p.waits + 1 else p.waits := rfl
@[simp] theorem Port.tick_rsp (p : Port) (a : Bool) : (p.tick a).rsp = p.rsp := rfl
@[simp] theorem Port.tick_cycle (p : Port) (a : Bool) : (p.tick a).cycle = p.cycle + 1 := rfl

@[simp] theorem Port.resetEdge_sinceAccept (p : Port) : (p.resetEdge).sinceAccept = p.sinceAccept.map (· + 1) := rfl
@[simp] theorem Port.resetEdge_waited (p : Port) : (p.resetEdge).waited = 0 := rfl
@[simp] theorem Port.resetEdge_waits (p : Port) : (p.resetEdge).waits = p.waits + 1 := rfl
@[simp] theorem Port.resetEdge_rsp (p : Port) : (p.resetEdge).rsp = none := rfl
@[simp] theorem Port.resetEdge_cycle (p : Port) : (p.resetEdge).cycle = p.cycle + 1 := rfl

@[simp] theorem Response.older_value (r : Response) : r.older.value = r.value := rfl
@[simp] theorem Response.older_age (r : Response) : r.older.age = r.age + 1 := rfl

end Sys2Proof.Machine
end

