-- ==== Sys2Proof/Laws/Crc.lean ====
section
/-! SUPPORT. The small lemmas of the datapath's definitions: the fold taken apart, and the byte step as bit steps. -/

namespace Sys2Proof.Machine

@[simp] theorem acc_nil (c : Word) : acc c [] = c := rfl

@[simp] theorem acc_cons (c : Word) (d : Byte) (M : List Byte) : acc c (d :: M) = acc (step8 c d) M := rfl

theorem acc_concat (c : Word) (M N : List Byte) : acc c (M ++ N) = acc (acc c M) N := by
  simp [acc, List.foldl_append]

@[simp] theorem feedBits_nil (c : Word) : feedBits c [] = c := rfl

@[simp] theorem feedBits_cons (c : Word) (b : Bool) (bits : List Bool) : feedBits c (b :: bits) = feedBits (step1 c b) bits := rfl

theorem feedBits_concat (c : Word) (as bs : List Bool) : feedBits c (as ++ bs) = feedBits (feedBits c as) bs := by
  simp [feedBits, List.foldl_append]

/-- The stream fold is the bit step over the message's bits in the order the engine takes them. -/
theorem acc_eq_feedBits (c : Word) (M : List Byte) : acc c M = feedBits c (messageBits M) := by
  induction M generalizing c with
  | nil => rfl
  | cons d M ih => simp [messageBits, ih, feedBits_concat, step8]

theorem byteBits_length (d : Byte) : (byteBits d).length = 8 := rfl

end Sys2Proof.Machine
end

