-- ==== Sys2Proof/Laws/Decode.lean ====
section
/-! SUPPORT. The fields of a command word (R60): taking a word apart and putting it together again. -/

namespace Sys2Proof

/-- The bits of a command word are those of its two fields (R60). -/
theorem getLsbD_cmdWord (op : Opcode) (v : Word) (i : Nat) :
    (cmdWord op v).getLsbD i = if i < 32 then v.getLsbD i else op.getLsbD (i - 32) :=
  BitVec.getLsbD_append (x := op) (y := v)

@[simp] theorem opField_cmdWord (op : Opcode) (v : Word) : opField (cmdWord op v) = op := by
  apply BitVec.eq_of_getLsbD_eq
  intro i hi
  simp [opField, getLsbD_cmdWord, hi]

@[simp] theorem operandField_cmdWord (op : Opcode) (v : Word) : operandField (cmdWord op v) = v := by
  apply BitVec.eq_of_getLsbD_eq
  intro i hi
  simp [operandField, getLsbD_cmdWord, hi]

theorem cmdWord_fields (w : CmdWord) : cmdWord (opField w) (operandField w) = w := by
  apply BitVec.eq_of_getLsbD_eq
  intro i hi
  rw [getLsbD_cmdWord]
  split
  · next h => simp [operandField, h]
  · next h =>
    have : i - 32 < 4 := by omega
    simp [opField, this]; congr 1; omega

end Sys2Proof
end

