-- ==== Sys2Proof/Laws/Ops.lean ====
section
/-! SUPPORT. One lemma per shared operation and per function above it: everything it can do, said once. -/

namespace Sys2Proof.Machine

/-! ### Meanings and the step -/

/-- A command's whole effect: the record of its rule, and its one response put on its way. -/
theorem exec_eq (i : Instr) (s : State) :
    exec i s = .next ((s.withEngine (engineAfter i s.engine)).respond (responseOf i s.engine)) := by
  cases i <;> rfl

/-- Everything a step can do. -/
theorem step_cases {s t : State} (h : step s = .next t) :
    (s.events = [] ∧ t = s) ∨
    (∃ w rest, s.events = .command w :: rest ∧
      t = (((s.withEvents rest).withEngine (engineAfter (decode w) s.engine)).respond (responseOf (decode w) s.engine))) ∨
    (∃ rest, s.events = .deliver :: rest ∧ t = (s.withEvents rest).deliver) ∨
    (∃ rest, s.events = .reset :: rest ∧ t = (s.withEvents rest).resetNow) := by
  unfold step at h
  split at h
  · next he => exact .inl ⟨he, by simpa using h.symm⟩
  · next w rest he =>
    rw [exec_eq] at h
    exact .inr (.inl ⟨w, rest, he, by simpa using h.symm⟩)
  · next rest he => exact .inr (.inr (.inl ⟨rest, he, by simpa using h.symm⟩))
  · next rest he => exact .inr (.inr (.inr ⟨rest, he, by simpa using h.symm⟩))

/-! ### Delivering -/

/-- Delivering moves the oldest response, and nothing else. -/
theorem State.deliver_cases (s : State) :
    (s.inFlight = [] ∧ s.deliver = s) ∨
    (∃ r rest, s.inFlight = r :: rest ∧ s.deliver = { s with inFlight := rest, delivered := s.delivered ++ [r.value] }) := by
  unfold State.deliver
  split
  · next h => exact .inl ⟨h, rfl⟩
  · next r rest h => exact .inr ⟨r, rest, h, rfl⟩

@[simp] theorem State.deliver_engine (s : State) : s.deliver.engine = s.engine := by
  unfold State.deliver; split <;> rfl

@[simp] theorem State.deliver_events (s : State) : s.deliver.events = s.events := by
  unfold State.deliver; split <;> rfl

@[simp] theorem State.deliver_responses (s : State) : s.deliver.responses = s.responses := by
  obtain ⟨_, h⟩ | ⟨r, rest, hq, h⟩ := s.deliver_cases
  · rw [h]
  · simp [h, State.responses, hq]

@[simp] theorem State.respond_responses (s : State) (v : Word) : (s.respond v).responses = s.responses ++ [v] := by
  simp [State.responses]

@[simp] theorem State.withEngine_responses (s : State) (e : Engine) : (s.withEngine e).responses = s.responses := rfl

@[simp] theorem State.withEvents_responses (s : State) (evs : List PortEvent) : (s.withEvents evs).responses = s.responses := rfl

@[simp] theorem State.resetNow_responses (s : State) : s.resetNow.responses = [] := rfl

/-! ### The count (R101) -/

/-- The new count is the sum modulo 2^32. -/
theorem countLow_eq (count : Word) (k : Nat) : countLow count k = count + BitVec.ofNat 32 k := by
  apply BitVec.eq_of_toNat_eq
  simp [countLow, countSum, BitVec.extractLsb'_toNat, BitVec.toNat_add, BitVec.toNat_ofNat]

/-- The carry says that the sum passes 0xFFFFFFFF. -/
theorem countCarry_eq (count : Word) (k : Nat) (hk : k < 2 ^ 32) :
    countCarry count k = decide (2 ^ 32 ≤ count.toNat + k) := by
  have hc := count.isLt
  simp only [countCarry, countSum, BitVec.getLsbD, BitVec.toNat_add, BitVec.toNat_setWidth, BitVec.toNat_ofNat,
    Nat.testBit_eq_decide_div_mod_eq]
  apply decide_eq_decide.mpr
  omega

/-! ### Lists of commands (R50) -/

/-- A list of commands completes, and what it leaves is what one command leaves after another. -/
theorem runInstrs_cons (i : Instr) (rest : List Instr) (s : State) :
    runInstrs (i :: rest) s =
      runInstrs rest ((s.withEngine (engineAfter i s.engine)).respond (responseOf i s.engine)) := by
  simp [runInstrs, exec_eq]

theorem runInstrs_append (is js : List Instr) (s : State) :
    runInstrs (is ++ js) s =
      match runInstrs is s with
      | .next t => runInstrs js t
      | .fault f => .fault f
      | .refused r => .refused r := by
  induction is generalizing s with
  | nil => rfl
  | cons i rest ih => simp [runInstrs_cons, ih]

/-! ### The signal level (R67) -/

/-- `cmd_ready` is 1 exactly where nothing is left to wait. -/
theorem State.cmdReady_iff (s : State) : s.cmdReady = true ↔ s.port.lowFor = 0 := by simp [State.cmdReady]

/-- Where `cmd_ready` is 1, the last acceptance lies CMD_INTERVAL edges back or more. -/
theorem State.cmdReady_spaced {s : State} {k : Nat} (h : s.cmdReady = true) (hk : s.port.sinceAccept = some k) :
    Config.cmdInterval ≤ k := by
  rw [State.cmdReady_iff] at h
  simp only [Port.lowFor, Port.spacingLeft, hk] at h
  omega

/-- An edge that neither accepts nor resets shortens the wait by one. -/
theorem Port.lowFor_tick (p : Port) : (p.tick false).lowFor = p.lowFor - 1 := by
  cases h : p.sinceAccept <;> simp [Port.lowFor, Port.spacingLeft, Port.tick, h] <;> omega

/-- What stands on the response wires does not matter to `cmd_ready`. -/
@[simp] theorem Port.lowFor_rsp (p : Port) (rsp : Option Word) : { p with rsp := rsp }.lowFor = p.lowFor := rfl

/-- The response wires after an edge: either the oldest response has waited RSP_LATENCY edges and is delivered, or nothing is on them. -/
theorem State.emit_cases (s : State) :
    (∃ r rest, s.inFlight = r :: rest ∧ Config.rspLatency ≤ r.age ∧
      s.emit = { s with inFlight := rest, delivered := s.delivered ++ [r.value], port := { s.port with rsp := some r.value } }) ∨
    ((∀ r rest, s.inFlight = r :: rest → r.age < Config.rspLatency) ∧
      s.emit = { s with port := { s.port with rsp := none } }) := by
  unfold State.emit
  split
  · next h => exact .inr ⟨by simp [h], rfl⟩
  · next r rest h =>
    split
    · next hl => exact .inl ⟨r, rest, h, hl, rfl⟩
    · next hl =>
      refine .inr ⟨fun r' rest' h' => ?_, rfl⟩
      rw [h] at h'
      cases h'
      omega

@[simp] theorem State.emit_engine (s : State) : s.emit.engine = s.engine := by
  obtain ⟨_, _, _, _, h⟩ | ⟨_, h⟩ := s.emit_cases <;> rw [h]

@[simp] theorem State.emit_events (s : State) : s.emit.events = s.events := by
  obtain ⟨_, _, _, _, h⟩ | ⟨_, h⟩ := s.emit_cases <;> rw [h]

@[simp] theorem State.tick_engine (s : State) (a : Bool) : (s.tick a).engine = s.engine := by simp [State.tick]

@[simp] theorem State.tick_events (s : State) (a : Bool) : (s.tick a).events = s.events := by simp [State.tick]

/-- An edge never stops the machine: it is a reset, an accepted command and a tick, or a tick alone. -/
theorem edge_eq (inp : PortInput) (s : State) :
    edge inp s = .next (
      if inp.rst then { s.resetNow with port := s.port.resetEdge }
      else if s.accepts inp then
        ((s.withEngine (engineAfter (decode inp.word) s.engine)).respond (responseOf (decode inp.word) s.engine)).tick true
      else s.tick false) := by
  unfold edge
  split
  · simp
  · split
    · simp [exec_eq]
    · simp

/-- The counters after a tick; the response wires are `emit`'s. -/
theorem State.tick_port (s : State) (a : Bool) :
    (s.tick a).port = { s.port.tick a with rsp := (s.tick a).port.rsp } := by
  unfold State.tick
  obtain ⟨_, _, _, _, h⟩ | ⟨_, h⟩ :=
    State.emit_cases { s with inFlight := s.inFlight.map Response.older, port := s.port.tick a } <;> rw [h]

end Sys2Proof.Machine
end

