-- ==== Sys2Proof/Laws/PerInstr.lean ====
section
/-! SUPPORT. The per-instruction family TableRow: a well-formed instruction's command word is one of the row of spec/opcode_table.json that its
constructor stands for (its "match" and "mask", R63). -/

namespace Sys2Proof.Laws.TableRow

open Sys2Proof

/-- The command word of `i` is covered by its row of the opcode table. -/
def Statement (i : Instr) : Prop :=
  i.wellFormed = true → (opcodeTable[i.rowIndex]?.map fun r => r.covers (encode i)) = some true

/-- A mask over the opcode field keeps the opcode alone. -/
theorem covers_of_opcode (op : Opcode) (v : Word) :
    (cmdWord op v &&& 0xF00000000#36) = cmdWord op 0#32 := by
  apply BitVec.eq_of_getLsbD_eq
  intro i hi
  rw [BitVec.getLsbD_and, getLsbD_cmdWord, getLsbD_cmdWord, show (0xF00000000#36) = cmdWord 0xF#4 0#32 by rfl, getLsbD_cmdWord]
  split
  · simp
  · have : i - 32 < 4 := by omega
    generalize i - 32 = j at *
    interval_cases j <;> simp

/-- A reserved opcode has `w[35] = 1` (R64). -/
theorem covers_reserved (op : Opcode) (v : Word) (h : 8 ≤ op.toNat) :
    (cmdWord op v &&& 0x800000000#36) = 0x800000000#36 := by
  have hm : op.getLsbD 3 = true := by
    revert h; revert op; decide
  apply BitVec.eq_of_getLsbD_eq
  intro i hi
  rw [BitVec.getLsbD_and, getLsbD_cmdWord, show (0x800000000#36) = cmdWord 0x8#4 0#32 by rfl, getLsbD_cmdWord]
  split
  · simp
  · have : i - 32 < 4 := by omega
    generalize i - 32 = j at *
    interval_cases j <;> simp [hm]

theorem nop (ign : Word) : Statement (.nop ign) := by
  intro _; simp [opcodeTable, Instr.rowIndex, TableRow.covers, encode, Instr.opcode, Instr.operand, covers_of_opcode]; rfl

theorem init (ign : Word) : Statement (.init ign) := by
  intro _; simp [opcodeTable, Instr.rowIndex, TableRow.covers, encode, Instr.opcode, Instr.operand, covers_of_opcode]; rfl

theorem feed8 (ign : BitVec 24) (d : Byte) : Statement (.feed8 ign d) := by
  intro _; simp [opcodeTable, Instr.rowIndex, TableRow.covers, encode, Instr.opcode, Instr.operand, covers_of_opcode]; rfl

theorem feed32 (v : Word) : Statement (.feed32 v) := by
  intro _; simp [opcodeTable, Instr.rowIndex, TableRow.covers, encode, Instr.opcode, Instr.operand, covers_of_opcode]; rfl

theorem read (ign : Word) : Statement (.read ign) := by
  intro _; simp [opcodeTable, Instr.rowIndex, TableRow.covers, encode, Instr.opcode, Instr.operand, covers_of_opcode]; rfl

theorem check (v : Word) : Statement (.check v) := by
  intro _; simp [opcodeTable, Instr.rowIndex, TableRow.covers, encode, Instr.opcode, Instr.operand, covers_of_opcode]; rfl

theorem status (ign : Word) : Statement (.status ign) := by
  intro _; simp [opcodeTable, Instr.rowIndex, TableRow.covers, encode, Instr.opcode, Instr.operand, covers_of_opcode]; rfl

theorem count (ign : Word) : Statement (.count ign) := by
  intro _; simp [opcodeTable, Instr.rowIndex, TableRow.covers, encode, Instr.opcode, Instr.operand, covers_of_opcode]; rfl

theorem reserved (op : Opcode) (ign : Word) : Statement (.reserved op ign) := by
  intro h
  have h8 : 8 ≤ op.toNat := by simpa [Instr.wellFormed, reservedOpcode] using h
  simp [opcodeTable, Instr.rowIndex, TableRow.covers, encode, Instr.opcode, Instr.operand, covers_reserved, h8]

end Sys2Proof.Laws.TableRow
end

