-- ==== Sys2Proof/Tests/Slice0.lean ====
section
/-! SUPPORT. The model's own tests: the check of WellFormed, words written out from the spec's encodings, at most two vectors of spec/95_test_vectors.md for each command, and for
every statement with hypotheses a state and operands that meet them. Expected values are the spec's (the vector's name stands beside each). -/

set_option maxRecDepth 8000

namespace Sys2Proof.Tests

open Sys2Proof Sys2Proof.Machine

/-! ### Helpers -/

/-- A state with this record, flags in the order MISMATCH, CHECKED, ILLEGAL, WRAP (spec/95_test_vectors.md "MCIW"). -/
def stateOf (crcReg count : Word) (m c i w : Bool) : State :=
  { State.reset with engine := { crcReg := crcReg, count := count, mismatch := m, checked := c, illegal := i, wrap := w } }

/-- The record and the responses of an outcome. -/
def seen (o : Host.Outcome State Fault Refusal) : Option (Word × Word × List Bool × List Word) :=
  match o with
  | .next t => some (t.engine.crcReg, t.engine.count, [t.engine.mismatch, t.engine.checked, t.engine.illegal, t.engine.wrap], t.responses)
  | .fault _ => none
  | .refused _ => none

/-- What one step on this command word leaves, from this state. -/
def after (s : State) (w : Nat) : Option (Word × Word × List Bool × List Word) := seen (step (s.withFetchWord 36 w))

/-! ### WellFormed: an ill-formed term is refused, the boundary terms are not -/

theorem test_wellFormed_refuses_defined_opcode : (Instr.reserved 0x7#4 0#32).wellFormed = false := by decide

theorem test_wellFormed_takes_reserved_opcodes :
    (Instr.reserved 0x8#4 0#32).wellFormed = true ∧ (Instr.reserved 0xF#4 0#32).wellFormed = true := by decide

/-! ### Decoding: words written out bit by bit from the encodings of spec/opcode_table.json -/

theorem test_decode_nop : decode 0b000011011110101011011011111011101111#36 = .nop 0xDEADBEEF#32 := by decide

theorem test_decode_init : decode 0b000100000000000000000000000000000001#36 = .init 1#32 := by decide

theorem test_decode_feed8 : decode 0b001011111111111111111111111100111000#36 = .feed8 0xFFFFFF#24 0x38#8 := by decide

theorem test_decode_feed32 : decode 0b001101001001010001010100111001000100#36 = .feed32 0x49454E44#32 := by decide

theorem test_decode_read : decode 0b010000010010001101000101011001111000#36 = .read 0x12345678#32 := by decide

theorem test_decode_check : decode 0b010110101110010000100110000010000010#36 = .check 0xAE426082#32 := by decide

theorem test_decode_status : decode 0b011000000000000000000000000000000000#36 = .status 0#32 := by decide

theorem test_decode_count : decode 0b011111111111111111111111111111111111#36 = .count 0xFFFFFFFF#32 := by decide

theorem test_decode_reserved : decode 0b110100000000000000000000000000000000#36 = .reserved 0xD#4 0#32 := by decide

/-- The table's number of a word is its 36 bits; a number with a bit above bit 35 is no word. -/
theorem test_decodeTableWord :
    decodeTableWord 40 0x349454E44 = some (.feed32 0x49454E44#32) ∧ decodeTableWord 40 0x1000000000 = none := by decide

/-- No two rows of the opcode table overlap. -/
theorem test_rows_do_not_overlap :
    opcodeTable.Pairwise (fun a b => a.pattern &&& a.mask &&& b.mask ≠ b.pattern &&& a.mask &&& b.mask) := by decide

/-! ### Commands: vectors of spec/95_test_vectors.md -/

/-- V-NOP-3. -/
theorem test_nop_keeps_flags : after (stateOf 0x2DFD1072#32 0#32 true true true true) 0x0FFFFFFFF
    = some (0x2DFD1072#32, 0#32, [true, true, true, true], [0#32]) := by decide

/-- V-INIT-2. -/
theorem test_init_clears_sticky : after (stateOf 0x2DFD1072#32 0#32 true true true true) 0x1FFFFFFFF
    = some (0xFFFFFFFF#32, 0#32, [false, false, false, false], [0#32]) := by decide

/-- V-F8-3. -/
theorem test_feed8_ignores_high_bits : after State.reset 0x2FFFFFF00
    = some (0x2DFD1072#32, 1#32, [false, false, false, false], [0#32]) := by decide

/-- V-F8-9. -/
theorem test_feed8_wraps : after (stateOf 0xFFFFFFFF#32 0xFFFFFFFF#32 false false false false) 0x200000000
    = some (0x2DFD1072#32, 0#32, [false, false, false, true], [0#32]) := by decide

/-- V-F32-1. -/
theorem test_feed32_iend : after State.reset 0x349454E44
    = some (0x51BD9F7D#32, 4#32, [false, false, false, false], [0#32]) := by decide

/-- V-F32-9: no wrap at 0xFFFFFFFF exactly. -/
theorem test_feed32_reaches_top : after (stateOf 0xFFFFFFFF#32 0xFFFFFFFB#32 false false false false) 0x300000000
    = some (0xDEBB20E3#32, 0xFFFFFFFF#32, [false, false, false, false], [0#32]) := by decide

/-- V-RD-2. -/
theorem test_read_iend : after (stateOf 0x51BD9F7D#32 4#32 false false false false) 0x412345678
    = some (0x51BD9F7D#32, 4#32, [false, false, false, false], [0xAE426082#32]) := by decide

/-- V-CK-1. -/
theorem test_check_match : after (stateOf 0x51BD9F7D#32 4#32 true false false false) 0x5AE426082
    = some (0x51BD9F7D#32, 4#32, [false, true, false, false], [0xAE426082#32]) := by decide

/-- V-CK-3. -/
theorem test_check_byte_swapped : after (stateOf 0x51BD9F7D#32 4#32 false false false false) 0x5826042AE
    = some (0x51BD9F7D#32, 4#32, [true, true, false, false], [0xAE426082#32]) := by decide

/-- V-ST-2. -/
theorem test_status_mismatch : after (stateOf 0x51BD9F7D#32 4#32 true true false false) 0x6FFFFFFFF
    = some (0x51BD9F7D#32, 4#32, [true, true, false, false], [3#32]) := by decide

/-- V-ST-4. -/
theorem test_status_wrap : after (stateOf 0xDEBB20E3#32 2#32 false false false true) 0x600000000
    = some (0xDEBB20E3#32, 2#32, [false, false, false, true], [8#32]) := by decide

/-- V-CN-3. -/
theorem test_count_top : after (stateOf 0x2DFD1072#32 0xFFFFFFFF#32 false false false false) 0x700000000
    = some (0x2DFD1072#32, 0xFFFFFFFF#32, [false, false, false, false], [0xFFFFFFFF#32]) := by decide

/-- V-RS-8. -/
theorem test_reserved_f : after (stateOf 0x51BD9F7D#32 4#32 false false false false) 0xFFFFFFFFF
    = some (0x51BD9F7D#32, 4#32, [false, false, true, false], [0#32]) := by decide

/-! ### Datapath -/

/-- E6: the PNG IEND chunk; R80: the residue. -/
theorem test_crc_iend : crc32 [0x49#8, 0x45#8, 0x4E#8, 0x44#8] = 0xAE426082#32 ∧
    acc crcInit [0x49#8, 0x45#8, 0x4E#8, 0x44#8, 0x82#8, 0x60#8, 0x42#8, 0xAE#8] = 0xDEBB20E3#32 := by decide

/-- V-DP-2, V-DP-3, V-DP-4: the three byte-step forms on c = 0x12345678, d = 0xAB. -/
theorem test_step8_forms : step8 0x12345678#32 0xAB#8 = 0x1FC8B738#32 ∧ step8Table 0x12345678#32 0xAB#8 = 0x1FC8B738#32 ∧
    step8Parallel 0x12345678#32 0xAB#8 = 0x1FC8B738#32 := by decide

/-- R90 on "123456789" (E6). -/
theorem test_msb_first : (msbAcc 0xFFFFFFFF#32 [0x31#8, 0x32#8, 0x33#8, 0x34#8, 0x35#8, 0x36#8, 0x37#8, 0x38#8, 0x39#8]).reverse
    = 0x340BC6D9#32 := by decide

/-! ### The assembler (R68 to R71) -/

/-- P2, rows 1 to 5: CHUNKCRC of the teXt / hello chunk, from text. -/
theorem test_assemble_chunkcrc :
    assembleLine ['C', 'H', 'U', 'N', 'K', 'C', 'R', 'C', ' ', '\'', 't', 'e', 'X', 't', '\'', ',', '\'', 'h', '\'', ',', ' ', '\'', 'e', '\'', ',',
      '1', '0', '8', ',', '0', 'x', '6', 'C', ',', '\'', 'o', '\'', ' ', ';', ' ', 'P', '2']
    = some [0x100000000#36, 0x374655874#36, 0x368656C6C#36, 0x20000006F#36, 0x400000000#36] := by decide

/-- P4, row 6: the assembler refuses 0xFFFFFF38; R68: a value outside the range is an error. -/
theorem test_assemble_refuses :
    assembleLine ['F', 'E', 'E', 'D', '8', ' ', '0', 'x', 'F', 'F', 'F', 'F', 'F', 'F', '3', '8'] = none ∧
    assembleLine ['R', 'S', 'V', 'D', ' ', '7'] = none ∧
    assembleLine ['R', 'S', 'V', 'D', ' ', '1', '5'] = some [0xF00000000#36] := by decide

/-- R70: FEEDSTR of an ASCII text feeds its ASCII codes. -/
theorem test_feedstr : feedStr ['h', 'e', 'l', 'l', 'o'] = [.feed32 0x68656C6C#32, .feed8 0 0x6F#8] := by decide

/-! ### Witnesses: for each statement with hypotheses, a state and operands that meet them all -/

/-- A state with this first event. -/
def facing (ev : PortEvent) : State := { State.reset with events := [ev] }

/-- A state with one response on its way and its delivery next. -/
def answering : State := { State.reset with inFlight := [{ value := 7#32, age := 0 }], events := [.deliver] }

/-- A state whose port is ready: it has waited as long as the implementation chose. -/
def ready : State := { State.reset with port := { Port.reset with waited := Config.readyDelay 0 } }

/-- The wires of a command. -/
def presenting (op : Opcode) (v : Word) : PortInput := { rst := false, cmdValid := true, cmdOp := op, cmdData := v }

/-- The wires with nothing presented. -/
def quiet : PortInput := { rst := false, cmdValid := false, cmdOp := 0, cmdData := 0 }

/-- The wires of a reset, with a command presented beside it. -/
def resetting : PortInput := { rst := true, cmdValid := true, cmdOp := 0x3#4, cmdData := 0 }

theorem ready_cmdReady : ready.cmdReady = true := by
  simp [ready, State.cmdReady, Port.lowFor, Port.spacingLeft, Port.reset]

theorem ready_accepts (op : Opcode) (v : Word) : ready.accepts (presenting op v) = true := by
  simp [State.accepts, presenting, ready_cmdReady]

theorem witness_ResetBetweenCommands : (facing .reset).events = .reset :: [] := by decide

theorem witness_CountAdvanceIsModular : (1 : Nat) = 1 ∨ (1 : Nat) = 4 := by decide

theorem witness_CountAdvanceIsModular_four : (4 : Nat) = 1 ∨ (4 : Nat) = 4 := by decide

theorem witness_RepeatedCommands :
    (∀ i ∈ [Instr.nop 0, .read 0, .status 0, .count 0], i.opcode ∈ [0x0#4, 0x4#4, 0x6#4, 0x7#4] ∧ i.wellFormed = true) ∧
    (∀ i ∈ [Instr.init 0, .check 0], i.opcode ∈ [0x1#4, 0x5#4]) ∧
    (∀ i ∈ [Instr.feed8 0 0, .feed32 0], i.opcode ∈ [0x2#4, 0x3#4] ∧ i.wellFormed = true) := by decide

theorem witness_StepRunsDecodedCommand : (facing (.command 0x349454E44#36)).events = .command 0x349454E44#36 :: [] := by decide

theorem witness_PlacedWordRunsNext : (0xFFFFFFFFF : Nat) < 2 ^ 36 := by decide

theorem witness_IdleHoldsState : State.reset.events = [] := by decide

theorem witness_DeliveryTakesOldest :
    answering.events = .deliver :: [] ∧ answering.inFlight = { value := 7#32, age := 0 } :: [] := by decide

/-- The first, second, fourth, sixth and eighth clause: a FEED that wraps, a CHECK and a reserved opcode change what the clauses speak of. -/
theorem witness_WritersOfTheRecord_sets :
    (∃ t, step ((stateOf 0xFFFFFFFF#32 0xFFFFFFFF#32 false false false false).withFetchWord 36 0x200000000) = .next t ∧
      t.engine.crcReg ≠ 0xFFFFFFFF#32 ∧ t.engine.count ≠ 0xFFFFFFFF#32 ∧ t.engine.wrap = true) ∧
    (∃ t, step (State.reset.withFetchWord 36 0x5FFFFFFFF) = .next t ∧ t.engine.mismatch ≠ false ∧ t.engine.checked = true) ∧
    (∃ t, step (State.reset.withFetchWord 36 0x800000000) = .next t ∧ t.engine.illegal = true) :=
  ⟨⟨_, rfl, by decide⟩, ⟨_, rfl, by decide⟩, ⟨_, rfl, by decide⟩⟩

/-- The clearing clauses: INIT clears every flag. -/
theorem witness_WritersOfTheRecord_clears :
    ∃ t, step ((stateOf 0#32 0#32 true true true true).withFetchWord 36 0x100000000) = .next t ∧
      t.engine.mismatch = false ∧ t.engine.checked = false ∧ t.engine.illegal = false ∧ t.engine.wrap = false :=
  ⟨_, rfl, by decide⟩

theorem witness_DecodeEncodeInverse : (Instr.reserved 0x8#4 0#32).wellFormed = true := by decide

theorem witness_ExactlyOneRowCovers : (8 : Nat) < 9 := by decide

/-- Format N: every operand bit differs. -/
theorem witness_IgnoredBitsHaveNoEffect_N :
    opField 0x4FFFFFFFF#36 = opField 0x400000000#36 ∧
    operandField 0x4FFFFFFFF#36 &&& (formatOf (opField 0x4FFFFFFFF#36)).readMask = operandField 0x400000000#36 &&& (formatOf (opField 0x4FFFFFFFF#36)).readMask := by decide

/-- Format B: bits 31:8 differ. -/
theorem witness_IgnoredBitsHaveNoEffect_B :
    opField 0x2FFFFFF38#36 = opField 0x200000038#36 ∧
    operandField 0x2FFFFFF38#36 &&& (formatOf (opField 0x2FFFFFF38#36)).readMask = operandField 0x200000038#36 &&& (formatOf (opField 0x2FFFFFF38#36)).readMask := by decide

/-- Format W: the words agree. -/
theorem witness_IgnoredBitsHaveNoEffect_W :
    opField 0x5AE426082#36 = opField 0x5AE426082#36 ∧
    operandField 0x5AE426082#36 &&& (formatOf (opField 0x5AE426082#36)).readMask = operandField 0x5AE426082#36 &&& (formatOf (opField 0x5AE426082#36)).readMask := by decide

theorem witness_SingleByteChangeIsDetected : (0x6F#8 : Byte) ≠ 0x70#8 := by decide

/-- A change of all four bytes, a span of 32 bits. -/
theorem witness_BurstOf32BitsIsDetected : ∃ span span' : List Bool,
    messageBits [0#8, 0#8, 0#8, 0#8] = [] ++ span ++ [] ∧ messageBits [1#8, 0#8, 0#8, 128#8] = [] ++ span' ++ [] ∧
    span.length = span'.length ∧ span.length ≤ 32 ∧ span ≠ span' :=
  ⟨messageBits [0#8, 0#8, 0#8, 0#8], messageBits [1#8, 0#8, 0#8, 128#8], by decide⟩

theorem witness_ShortMessagesAreDistinguished :
    [1#8, 2#8, 3#8, 4#8].length = [1#8, 2#8, 3#8, 4#8].length ∧ [1#8, 2#8, 3#8, 4#8].length ≤ 4 ∧
    crc32 [1#8, 2#8, 3#8, 4#8] = crc32 [1#8, 2#8, 3#8, 4#8] := by decide

theorem witness_FeedGroupingDoesNotMatter :
    [Instr.feed32 0x31323334#32, .feed8 0 0x35#8].all isFeed = true ∧ [Instr.feed8 0 0x31#8, .feed32 0x32333435#32].all isFeed = true ∧
    [Instr.feed32 0x31323334#32, .feed8 0 0x35#8].flatMap fedBytes = [Instr.feed8 0 0x31#8, .feed32 0x32333435#32].flatMap fedBytes := by decide

/-- Six bytes: one FEED32 (k = 0) and two FEED8 (j = 1 the last). -/
theorem witness_FeedBytesFeedsItsBytes : 0 < (List.replicate 6 0#8).length / 4 ∧ 1 < (List.replicate 6 0#8).length % 4 := by decide

theorem witness_ChangedDataByteFailsCheck : (0x34#8 : Byte) ≠ 0x35#8 := by decide

theorem tracks_reset : Tracks [] State.reset.engine := ⟨rfl, rfl, rfl⟩

theorem witness_RecordTracksMessage : ∃ t,
    Tracks [] (State.reset.withFetchWord 36 0x349454E44).engine ∧ step (State.reset.withFetchWord 36 0x349454E44) = .next t :=
  ⟨_, tracks_reset, rfl⟩

/-- Without WRAP: the empty message. -/
theorem witness_CountTellsLength : Tracks [] State.reset.engine ∧ State.reset.engine.wrap = false := ⟨tracks_reset, rfl⟩

/-- With WRAP: a message of 2^32 zero bytes. -/
theorem witness_CountTellsLength_wrap : ∃ (M : List Byte) (e : Engine), Tracks M e ∧ e.wrap = true :=
  ⟨List.replicate (2 ^ 32) 0#8, ⟨acc crcInit (List.replicate (2 ^ 32) 0#8), 0#32, false, false, false, true⟩,
    ⟨rfl, by simp only [List.length_replicate]; rfl, by simp only [List.length_replicate]; rfl⟩, rfl⟩

theorem witness_MismatchOnlyWithChecked : ∃ t,
    MismatchNeedsCheck (stateOf 0#32 0#32 true true false false).engine ∧
    step ((stateOf 0#32 0#32 true true false false).withFetchWord 36 0x500000000) = .next t :=
  ⟨_, fun _ => rfl, rfl⟩

theorem witness_StepAnswersInOrder : ∃ t,
    AnswersFor [] (State.reset.withFetchWord 36 0x400000000) ∧ step (State.reset.withFetchWord 36 0x400000000) = .next t :=
  ⟨_, ⟨rfl, rfl⟩, rfl⟩

theorem witness_ResetEdgeResets : resetting.rst = true := rfl

/-- Both wires 1. -/
theorem witness_AcceptanceNeedsBothWires :
    (presenting 0x3#4 0#32).rst = false ∧ (presenting 0x3#4 0#32).cmdValid = true ∧ ready.cmdReady = true :=
  ⟨rfl, rfl, ready_cmdReady⟩

/-- Nothing presented; and `cmd_ready = 0`, right where an acceptance went before. -/
theorem witness_AcceptanceNeedsBothWires_held :
    (quiet.rst = false ∧ quiet.cmdValid = false) ∧
    State.cmdReady { State.reset with port := { Port.reset with sinceAccept := some 0 } } = false := by
  refine ⟨⟨rfl, rfl⟩, ?_⟩
  simp only [State.cmdReady, Port.lowFor, Port.spacingLeft, Port.reset, Config.cmdInterval]
  apply decide_eq_false
  omega

theorem portInv_ready : PortInv ready := by simp [PortInv, ready, State.reset, Port.reset]

theorem witness_EdgeKeepsPortInvariant : ∃ t, PortInv ready ∧ edge (presenting 0x3#4 0#32) ready = .next t :=
  ⟨_, portInv_ready, edge_eq _ _⟩

/-- At the latency itself: the wires stay quiet for RSP_LATENCY - 1 edges. -/
theorem witness_ResponseAfterLatency : ∃ t, PortInv ready ∧
    (presenting 0x4#4 0#32).rst = false ∧ (presenting 0x4#4 0#32).cmdValid = true ∧ ready.cmdReady = true ∧
    edge (presenting 0x4#4 0#32) ready = .next t ∧
    (∀ x ∈ List.replicate Config.rspLatencyLess1 quiet, x.rst = false) ∧
    (List.replicate Config.rspLatencyLess1 quiet).length + 1 = Config.rspLatency := by
  refine ⟨_, portInv_ready, rfl, rfl, ready_cmdReady, edge_eq _ _, ?_, ?_⟩
  · intro x hx
    rw [List.eq_of_mem_replicate hx]
    rfl
  · simp [Config.rspLatency]

/-- Before the latency, where RSP_LATENCY has such a cycle: the edge of the acceptance alone. -/
theorem witness_ResponseAfterLatency_before (h : 2 ≤ Config.rspLatency) : ∃ t, PortInv ready ∧
    edge (presenting 0x4#4 0#32) ready = .next t ∧
    ([] : List PortInput).length + 1 ≤ Config.rspLatency ∧ ([] : List PortInput).length + 1 ≠ Config.rspLatency :=
  ⟨_, portInv_ready, edge_eq _ _, by simp only [List.length_nil]; omega, by simp only [List.length_nil]; omega⟩

/-- Quiet edges let the port's wait run out. -/
theorem quiet_edges (n : Nat) (s : State) : ∃ u, runEdges (List.replicate n quiet) s = .next u ∧
    u.port.lowFor = s.port.lowFor - n := by
  induction n generalizing s with
  | zero => exact ⟨s, rfl, rfl⟩
  | succ n ih =>
    have he : edge quiet s = .next (s.tick false) := by rw [edge_eq]; simp [quiet, State.accepts]
    obtain ⟨u, h1, h2⟩ := ih (s.tick false)
    refine ⟨u, by simp [List.replicate_succ, runEdges, he, h1], ?_⟩
    rw [h2, State.tick_port, Port.lowFor_rsp, Port.lowFor_tick]
    omega

/-- From every state, the port is ready after enough quiet edges. -/
theorem quiet_until_ready (s : State) (op : Opcode) (v : Word) :
    ∃ u, runEdges (List.replicate s.port.lowFor quiet) s = .next u ∧ u.accepts (presenting op v) = true := by
  obtain ⟨u, h1, h2⟩ := quiet_edges s.port.lowFor s
  refine ⟨u, h1, ?_⟩
  simp [State.accepts, presenting, State.cmdReady, h2]

/-- Right after an acceptance and the reset edge that follows it, CMD_INTERVAL still binds the port (R67). -/
theorem test_reset_keeps_spacing (k : Nat) (h : k < Config.cmdIntervalLess1) (p : Port) (hp : p.sinceAccept = some k) :
    p.resetEdge.lowFor ≠ 0 := by
  simp [Port.lowFor, Port.spacingLeft, hp, Config.cmdInterval]
  omega

/-- Two acceptances, the second as soon as the port is ready again. -/
theorem witness_AcceptancesAreSpaced : ∃ t u between,
    ready.accepts (presenting 0x2#4 0#32) = true ∧ edge (presenting 0x2#4 0#32) ready = .next t ∧
    runEdges between t = .next u ∧ u.accepts (presenting 0x4#4 0#32) = true := by
  obtain ⟨u, h1, h2⟩ := quiet_until_ready _ 0x4#4 0#32
  exact ⟨_, u, _, ready_accepts _ _, edge_eq _ _, h1, h2⟩

/-- The same with a reset edge between the two. -/
theorem witness_AcceptancesAreSpaced_reset : ∃ t u rest,
    ready.accepts (presenting 0x2#4 0#32) = true ∧ edge (presenting 0x2#4 0#32) ready = .next t ∧
    runEdges (resetting :: rest) t = .next u ∧ u.accepts (presenting 0x4#4 0#32) = true := by
  have next (inp : PortInput) (s : State) : ∃ t, edge inp s = .next t := ⟨_, edge_eq inp s⟩
  obtain ⟨t, ht⟩ := next (presenting 0x2#4 0#32) ready
  obtain ⟨r, hr⟩ := next resetting t
  obtain ⟨u, h1, h2⟩ := quiet_until_ready r 0x4#4 0#32
  exact ⟨t, u, _, ready_accepts _ _, ht, by simp only [runEdges, hr]; exact h1, h2⟩

theorem witness_HeldCommandIsAccepted : (presenting 0x4#4 0#32).rst = false ∧ (presenting 0x4#4 0#32).cmdValid = true := ⟨rfl, rfl⟩

theorem witness_EdgeRefinesTransactions : ∃ t, edge (presenting 0x4#4 0#32) ready = .next t := ⟨_, edge_eq _ _⟩

theorem witness_EdgeAnswersInOrder : ∃ t, AnswersFor [] ready ∧ (presenting 0x4#4 0#32).rst = false ∧
    edge (presenting 0x4#4 0#32) ready = .next t := ⟨_, ⟨rfl, rfl⟩, rfl, edge_eq _ _⟩

theorem witness_EnginesShareNoState : (1 : Fin 2) ≠ 0 := by decide

theorem witness_AssembledWordsCarryTheirValues :
    (255 : Nat) ≤ 255 ∧ (0xFFFFFFFF : Nat) ≤ 0xFFFFFFFF ∧ (8 : Nat) ≤ 8 ∧ (8 : Nat) ≤ 15 ∧ (8 : Nat) ≤ 15 ∧ (15 : Nat) ≤ 15 := by decide

end Sys2Proof.Tests
end

namespace Sys2Proof

/-! ### What decoding answers (R60, R63) -/

/-- A reserved opcode is one of the eight listed (R63, R64). -/
theorem reservedOpcode_iff_mem (op : Opcode) : reservedOpcode op = true ↔ op ∈ Machine.reservedOpcodes := by
  decide +revert

/-- The command a word decodes to has the word's opcode field. -/
theorem opcode_decode (w : CmdWord) : (decode w).opcode = opField w := by
  apply BitVec.eq_of_toNat_eq
  unfold decode
  split <;> simp_all [Instr.opcode]

/-- The decoder answers `.reserved` for reserved opcodes alone. -/
theorem wellFormed_decode (w : CmdWord) : (decode w).wellFormed = true := by
  unfold decode
  split
  case h_9 =>
    simp only [Instr.wellFormed, reservedOpcode, decide_eq_true_eq]
    grind
  all_goals rfl

theorem decode_of_opField_init {w : CmdWord} (h : opField w = 0x1) : decode w = .init (operandField w) := by
  simp [decode, h]

end Sys2Proof

namespace Sys2Proof.Machine

/-! ### The record after reset and INIT (R32, R103) -/

theorem Engine.afterInit_eq_reset (e : Engine) : e.afterInit = Engine.reset := rfl

theorem tracks_nil_reset : Tracks [] Engine.reset := ⟨rfl, rfl, rfl⟩

theorem crc32_nil : crc32 [] = 0#32 := by
  simp [crc32, finalValue, crcInit, crcXorOut]

theorem mismatchNeedsCheck_reset : MismatchNeedsCheck Engine.reset := by
  simp [MismatchNeedsCheck, Engine.reset]

/-- Settles O1: the values of R32's table, which are those of INIT's record. -/
theorem resetValues : Obligations.ResetValues :=
  ⟨rfl, rfl, rfl, rfl, rfl, rfl, fun ign s => ⟨_, exec_eq (.init ign) s, s.engine.afterInit_eq_reset⟩⟩

/-- Settles O43: the reset record tracks the empty message. -/
theorem resetTracksEmptyMessage : Obligations.ResetTracksEmptyMessage :=
  ⟨tracks_nil_reset, crc32_nil⟩

/-- Settles O46: MISMATCH is 0 at reset. -/
theorem resetMeetsMismatchNeedsCheck : Obligations.ResetMeetsMismatchNeedsCheck :=
  mismatchNeedsCheck_reset

/-! ### What each command leaves of the record (R21, R25 to R28, R30) -/

/-- Where the bytes fed are recorded (R21, R28, R30): no command but INIT and the FEEDs writes there. -/
theorem engineAfter_keeps_feed_fields {i : Instr} (e : Engine) (hinit : i.opcode ≠ 0x1)
    (h : i.opcode ∉ [0x2#4, 0x3]) :
    (engineAfter i e).crcReg = e.crcReg ∧ (engineAfter i e).count = e.count ∧ (engineAfter i e).wrap = e.wrap := by
  cases i with
  | init => exact absurd rfl hinit
  | feed8 | feed32 => simp [Instr.opcode] at h
  | nop | read | check | status | count | reserved => exact ⟨rfl, rfl, rfl⟩

/-- The flags of the comparison (R25, R26): no command but INIT and CHECK writes them. -/
theorem engineAfter_keeps_check_flags {i : Instr} (e : Engine) (hinit : i.opcode ≠ 0x1)
    (h : i.opcode ∉ [0x5#4]) :
    (engineAfter i e).mismatch = e.mismatch ∧ (engineAfter i e).checked = e.checked := by
  cases i with
  | init => exact absurd rfl hinit
  | check => simp [Instr.opcode] at h
  | nop | feed8 | feed32 | read | status | count | reserved => exact ⟨rfl, rfl⟩

/-- ILLEGAL (R27): no command but INIT and the reserved opcodes writes it. -/
theorem engineAfter_keeps_illegal {i : Instr} (e : Engine) (hwf : i.wellFormed = true)
    (hinit : i.opcode ≠ 0x1) (h : i.opcode ∉ reservedOpcodes) : (engineAfter i e).illegal = e.illegal := by
  cases i with
  | init => exact absurd rfl hinit
  | reserved op => exact absurd ((reservedOpcode_iff_mem op).mp hwf) h
  | nop | feed8 | feed32 | read | check | status | count => rfl

/-- A flag that says something has happened stays set under every command but INIT (R26, R27, R28). -/
theorem engineAfter_keeps_set_flags {i : Instr} (e : Engine) (h : i.opcode ≠ 0x1) :
    (e.checked = true → (engineAfter i e).checked = true) ∧
    (e.illegal = true → (engineAfter i e).illegal = true) ∧
    (e.wrap = true → (engineAfter i e).wrap = true) := by
  cases i with
  | init => exact absurd rfl h
  | feed8 | feed32 => exact ⟨id, id, fun hw => by simp [engineAfter, hw]⟩
  | check => exact ⟨fun _ => rfl, id, id⟩
  | reserved => exact ⟨id, fun _ => rfl, id⟩
  | nop | read | status | count => exact ⟨id, id, id⟩

/-- CHECK sets MISMATCH together with CHECKED, and INIT clears both. -/
theorem engineAfter_keeps_mismatchNeedsCheck (i : Instr) {e : Engine} (h : MismatchNeedsCheck e) :
    MismatchNeedsCheck (engineAfter i e) := by
  cases i with
  | init => exact mismatchNeedsCheck_reset
  | check => exact fun _ => rfl
  | nop | feed8 | feed32 | read | status | count | reserved => exact h

/-! ### What a step does to the record -/

theorem State.nextIsCommand.mono {s : State} {ops ops' : List Opcode} (h : s.nextIsCommand ops) (hsub : ops ⊆ ops') :
    s.nextIsCommand ops' := by
  obtain ⟨w, rest, hev, hop⟩ := h
  exact ⟨w, rest, hev, hsub hop⟩

/-- Everything a step can do to the record: hold it, clear it, or what a command other than INIT does. -/
theorem step_engine_cases {s t : State} (h : step s = .next t) :
    t.engine = s.engine ∨
    ((s.nextIsReset ∨ s.nextIsCommand [0x1]) ∧ t.engine = Engine.reset) ∨
    (∃ i : Instr, i.wellFormed = true ∧ i.opcode ≠ 0x1 ∧ s.nextIsCommand [i.opcode] ∧
      t.engine = engineAfter i s.engine) := by
  obtain ⟨-, rfl⟩ | ⟨w, rest, hev, rfl⟩ | ⟨rest, -, rfl⟩ | ⟨rest, hev, rfl⟩ := step_cases h
  · exact .inl rfl
  · by_cases hop : opField w = 0x1
    · refine .inr (.inl ⟨.inr ⟨w, rest, hev, by simp [hop]⟩, ?_⟩)
      simp [decode_of_opField_init hop, engineAfter, Engine.afterInit_eq_reset]
    · refine .inr (.inr ⟨decode w, wellFormed_decode w, by rwa [opcode_decode], ⟨w, rest, hev, ?_⟩, by simp⟩)
      simp [opcode_decode]
  · exact .inl (by simp)
  · exact .inr (.inl ⟨.inl ⟨rest, hev⟩, by simp⟩)

/-- Settles O45: holding the record, clearing it and every command keep the invariant. -/
theorem mismatchOnlyWithChecked : Obligations.MismatchOnlyWithChecked := by
  intro s t hinv hstep
  obtain heq | ⟨-, heq⟩ | ⟨i, -, -, -, heq⟩ := step_engine_cases hstep <;> rw [heq]
  · exact hinv
  · exact mismatchNeedsCheck_reset
  · exact engineAfter_keeps_mismatchNeedsCheck i hinv

/-- Settles O20: a step that holds the record writes nothing, a step that clears it sets no flag, and a command other than
INIT clears no sticky flag and keeps every field that is not its own. -/
theorem writersOfTheRecord : Obligations.WritersOfTheRecord := by
  intro s t hstep
  obtain heq | ⟨hclear, heq⟩ | ⟨i, hwf, hinit, hnext, heq⟩ := step_engine_cases hstep <;> rw [heq]
  · simp +contextual
  · have hby {ops} (hmem : [0x1] ⊆ ops) : s.nextIsReset ∨ s.nextIsCommand ops := hclear.imp_right (·.mono hmem)
    exact ⟨fun _ => hby (by simp), fun _ => hby (by simp), fun _ => hby (by simp), fun _ => nofun, fun _ _ => hclear,
      fun _ => nofun, fun _ _ => hclear, fun _ => nofun, fun _ _ => hclear⟩
  · have hby {ops} (hmem : i.opcode ∈ ops) : s.nextIsCommand ops := hnext.mono (by simpa using hmem)
    have hfeed := fun hne => hby (not_imp_comm.mp (engineAfter_keeps_feed_fields s.engine hinit) hne)
    have hcheck := fun hne => hby (not_imp_comm.mp (engineAfter_keeps_check_flags s.engine hinit) hne)
    have hreserved := fun hne => hby (not_imp_comm.mp (engineAfter_keeps_illegal s.engine hwf hinit) hne)
    obtain ⟨hchecked, hillegal, hwrap⟩ := engineAfter_keeps_set_flags s.engine hinit
    exact ⟨fun hne => .inr ((hfeed fun ⟨hk, _, _⟩ => hne hk).mono (by simp)),
      fun hne => .inr ((hfeed fun ⟨_, hk, _⟩ => hne hk).mono (by simp)),
      fun hne => .inr ((hcheck fun ⟨hk, _⟩ => hne hk).mono (by simp)),
      fun hoff hon => hcheck fun ⟨_, hk⟩ => Bool.eq_false_iff.mp hoff (hk.symm.trans hon),
      fun hon hoff => absurd (hchecked hon) (Bool.eq_false_iff.mp hoff),
      fun hoff hon => hreserved fun hk => Bool.eq_false_iff.mp hoff (hk.symm.trans hon),
      fun hon hoff => absurd (hillegal hon) (Bool.eq_false_iff.mp hoff),
      fun hoff hon => hfeed fun ⟨_, _, hk⟩ => Bool.eq_false_iff.mp hoff (hk.symm.trans hon),
      fun hon hoff => absurd (hwrap hon) (Bool.eq_false_iff.mp hoff)⟩

end Sys2Proof.Machine

namespace Sys2Proof.Machine

/-! ### A run over the events at the port (R50, R151) -/

/-- What one event at the port does to the state. -/
def PortEvent.effect : PortEvent → State → State
  | .command w, s => (s.withEngine (engineAfter (decode w) s.engine)).respond (responseOf (decode w) s.engine)
  | .deliver, s => s.deliver
  | .reset, s => s.resetNow

/-- What a list of events does to the state, the first event first. -/
def eventsEffect (evs : List PortEvent) (s : State) : State := evs.foldl (fun t ev => ev.effect t) s

@[simp] theorem eventsEffect_nil (s : State) : eventsEffect [] s = s := rfl

@[simp] theorem eventsEffect_cons (ev : PortEvent) (evs : List PortEvent) (s : State) :
    eventsEffect (ev :: evs) s = eventsEffect evs (ev.effect s) := rfl

/-- A step takes the first event, and what it does is the event's effect. -/
theorem step_withEvents_cons (ev : PortEvent) (evs : List PortEvent) (s : State) :
    step (s.withEvents (ev :: evs)) = .next (ev.effect (s.withEvents evs)) := by
  cases ev with
  | command w => exact exec_eq (decode w) (s.withEvents evs)
  | deliver => rfl
  | reset => rfl

/-- No effect reads the events still to come. -/
theorem PortEvent.effect_withEvents (ev : PortEvent) (evs : List PortEvent) (s : State) :
    ev.effect (s.withEvents evs) = (ev.effect s).withEvents evs := by
  cases ev with
  | command w => rfl
  | deliver => cases h : s.inFlight <;> simp [PortEvent.effect, State.deliver, State.withEvents, h]
  | reset => rfl

theorem run_succ_of_step {s t : State} (h : step s = .next t) (k : Nat) :
    Sys2Proof.core.run (k + 1) s = Sys2Proof.core.run k t := by
  simp only [Host.Core.run, show Sys2Proof.core.step s = .next t from h]

/-- A run of as many steps as there are events listed first has their effect and leaves the events after them. -/
theorem run_withEvents (evs later : List PortEvent) (s : State) :
    Sys2Proof.core.run evs.length (s.withEvents (evs ++ later)) = .next ((eventsEffect evs s).withEvents later) := by
  induction evs generalizing s with
  | nil => rfl
  | cons ev evs ih =>
    rw [List.length_cons, List.cons_append, run_succ_of_step (step_withEvents_cons ..), PortEvent.effect_withEvents, ih,
      eventsEffect_cons]

/-! ### What an edge does, timing apart (R67, R151) -/

theorem State.untimed_deliver (s : State) : s.deliver.untimed = s.untimed.deliver := by
  cases h : s.inFlight <;> simp [State.deliver, State.untimed, h]

/-- Timing apart, an event's effect does not read the ages or the port. -/
theorem PortEvent.effect_untimed (ev : PortEvent) (s : State) : (ev.effect s).untimed = ev.effect s.untimed := by
  cases ev with
  | command w => simp [PortEvent.effect, State.untimed, State.respond, State.withEngine]
  | deliver => exact s.untimed_deliver
  | reset => rfl

/-- Growing older changes nothing but an age. -/
theorem untimed_map_older (rs : List Response) :
    (rs.map Response.older).map (fun r => { r with age := 0 }) = rs.map (fun r => { r with age := 0 }) := by
  simp [Function.comp_def]

/-- The response wires of the coming cycle: timing apart, a response there has been delivered, and without one nothing happens. -/
theorem State.emit_untimed (s : State) : s.emit.untimed = if s.emit.rspValid then s.untimed.deliver else s.untimed := by
  obtain ⟨r, rest, hq, -, h⟩ | ⟨-, h⟩ := s.emit_cases
  · simp [h, State.rspValid, State.untimed, State.deliver, hq]
  · simp [h, State.rspValid, State.untimed]

/-- A tick delivers what it puts on the wires; the rest of it is timing. -/
theorem State.tick_untimed (s : State) (a : Bool) :
    (s.tick a).untimed = if (s.tick a).rspValid then s.untimed.deliver else s.untimed := by
  have haged : State.untimed { s with inFlight := s.inFlight.map Response.older, port := s.port.tick a } = s.untimed := by
    simp only [State.untimed, untimed_map_older]
  rw [State.tick, State.emit_untimed, haged]

/-- An edge's events, read off the state it leaves. -/
theorem edgeEvents_of_edge {inp : PortInput} {s t : State} (h : edge inp s = .next t) :
    edgeEvents inp s = if inp.rst then [.reset]
      else (if s.accepts inp then [.command inp.word] else []) ++ (if t.rspValid then [.deliver] else []) := by
  rw [edgeEvents, h]

/-- Timing apart, the edge's state is the effect of its events. -/
theorem edge_untimed {inp : PortInput} {s t : State} (h : edge inp s = .next t) :
    t.untimed = eventsEffect (edgeEvents inp s) s.untimed := by
  have ht := h
  rw [edge_eq, Host.Outcome.next.injEq] at ht
  rw [edgeEvents_of_edge h]
  by_cases hrst : inp.rst
  · rw [if_pos hrst] at ht ⊢
    subst ht
    rfl
  · rw [if_neg hrst] at ht ⊢
    by_cases hacc : s.accepts inp
    · rw [if_pos hacc] at ht ⊢
      have htick : t = ((PortEvent.command inp.word).effect s).tick true := ht.symm
      rw [List.singleton_append, eventsEffect_cons, ← PortEvent.effect_untimed, htick, State.tick_untimed]
      split <;> rfl
    · rw [if_neg hacc] at ht ⊢
      rw [List.nil_append, ← ht, State.tick_untimed]
      split <;> rfl

/-- The events still to come are the transaction level's input: no edge takes one. -/
theorem edge_events {inp : PortInput} {s t : State} (h : edge inp s = .next t) : t.events = s.events := by
  rw [edge_eq, Host.Outcome.next.injEq] at h
  subst h
  split
  · rfl
  · split <;> simp

/-- Settles O55: the run has the effect of the edge's events, which is the edge's, timing apart. -/
theorem edgeRefinesTransactions : Obligations.EdgeRefinesTransactions := by
  intro inp s t h
  rw [run_withEvents, ← edge_untimed h, ← edge_events h]
  rfl

/-! ### Repeated commands (R49) -/

/-- A reserved opcode stands in no list of defined opcodes (R63). -/
theorem not_mem_of_reservedOpcode {op : Opcode} {ops : List Opcode} (h : reservedOpcode op = true)
    (hdefined : ∀ o ∈ ops, reservedOpcode o = false) : op ∉ ops :=
  fun hmem => Bool.eq_false_iff.mp (hdefined op hmem) h

/-- NOP, READ, STATUS and COUNT write nothing in the record (R102, R106, R108, R109). -/
theorem engineAfter_of_query {i : Instr} (e : Engine) (hwf : i.wellFormed = true)
    (h : i.opcode ∈ [0x0#4, 0x4#4, 0x6#4, 0x7#4]) : engineAfter i e = e := by
  cases i with
  | nop | read | status | count => rfl
  | init | feed8 | feed32 | check => simp [Instr.opcode] at h
  | reserved => exact absurd h (not_mem_of_reservedOpcode hwf (by decide))

/-- Every command but the FEEDs leaves, when repeated, the record that it left. -/
theorem engineAfter_idem {i : Instr} (e : Engine) (h : i.opcode ∉ [0x2#4, 0x3#4]) :
    engineAfter i (engineAfter i e) = engineAfter i e := by
  cases i with
  | feed8 | feed32 => simp [Instr.opcode] at h
  | nop | init | read | check | status | count | reserved => rfl

/-- Fewer than 2^32 bytes fed, but not none, change the count (R101). -/
theorem Engine.advance_count_ne (e : Engine) {k : Nat} (hpos : 0 < k) (hlt : k < 2 ^ 32) :
    (e.advance k).count ≠ e.count := by
  rw [Engine.advance_count, countLow_eq]
  intro h
  have hzero : BitVec.ofNat 32 k = 0#32 := BitVec.self_eq_add_right.mp h.symm
  have hmod : k % 2 ^ 32 = 0 := congrArg BitVec.toNat hzero
  omega

/-- A FEED always changes the count (R104, R105). -/
theorem engineAfter_count_ne_of_feed {i : Instr} (e : Engine) (hwf : i.wellFormed = true)
    (h : i.opcode ∈ [0x2#4, 0x3#4]) : (engineAfter i e).count ≠ e.count := by
  cases i with
  | feed8 _ d => exact (e.feed [d]).advance_count_ne (by decide) (by decide)
  | feed32 v => exact (e.feed (wordBytes v)).advance_count_ne (by decide) (by decide)
  | nop | init | read | check | status | count => simp [Instr.opcode] at h
  | reserved => exact absurd h (not_mem_of_reservedOpcode hwf (by decide))

/-- Settles O13: the queries hold the record, which their answers depend on; INIT and CHECK are idempotent on it; the FEEDs count. -/
theorem repeatedCommands : Obligations.RepeatedCommands := by
  refine ⟨fun i s hop hwf => ?_, fun i s hop => ?_, fun i s hop hwf => ?_⟩
  · have hkeep := fun e => engineAfter_of_query e hwf hop
    refine ⟨_, _, responseOf i s.engine, exec_eq i s, exec_eq i _, ?_⟩
    simp [hkeep]
  · have hdisjoint : ∀ op ∈ [0x1#4, 0x5#4], op ∉ [0x2#4, 0x3#4] := by decide
    exact ⟨_, _, exec_eq i s, exec_eq i _, engineAfter_idem s.engine (hdisjoint _ hop)⟩
  · exact ⟨_, exec_eq i s, fun h => engineAfter_count_ne_of_feed s.engine hwf hop (congrArg Engine.count h)⟩

/-! ### Feeding bytes one by one and together (R46, R101, R105) -/

/-- The record a list of commands leaves. -/
def engineAfterAll (is : List Instr) (e : Engine) : Engine := is.foldl (fun e i => engineAfter i e) e

/-- A list of commands completes, and leaves the record that the commands leave one after another. -/
theorem runInstrs_engine (is : List Instr) (s : State) :
    ∃ t, runInstrs is s = .next t ∧ t.engine = engineAfterAll is s.engine := by
  induction is generalizing s with
  | nil => exact ⟨s, rfl, rfl⟩
  | cons i is ih =>
    rw [runInstrs_cons]
    exact ih _

theorem Engine.feed_feed (e : Engine) (as bs : List Byte) : (e.feed as).feed bs = e.feed (as ++ bs) := by
  simp [Engine.feed, acc_concat]

/-- Feeding and counting write different fields. -/
theorem Engine.feed_advance (e : Engine) (k : Nat) (bs : List Byte) : (e.advance k).feed bs = (e.feed bs).advance k := rfl

theorem Engine.advance_zero (e : Engine) : e.advance 0 = e := by
  have hcount : ¬2 ^ 32 ≤ e.count.toNat := Nat.not_le.mpr e.count.isLt
  simp only [Engine.advance, countLow_eq, countCarry_eq, BitVec.add_zero, Nat.add_zero, hcount, decide_false, Bool.or_false,
    Nat.two_pow_pos]

/-- Two counts carry, between them, where their sum does (R101). -/
theorem Engine.advance_advance (e : Engine) {j k : Nat} (h : j + k < 2 ^ 32) :
    (e.advance j).advance k = e.advance (j + k) := by
  have hcount : countLow (countLow e.count j) k = countLow e.count (j + k) := by
    simp only [countLow_eq, BitVec.ofNat_add, BitVec.add_assoc]
  have hcarry : (countCarry e.count j || countCarry (countLow e.count j) k) = countCarry e.count (j + k) := by
    have := e.count.isLt
    simp only [countLow_eq, countCarry_eq _ _ h, countCarry_eq _ j (by omega), countCarry_eq _ k (by omega),
      BitVec.toNat_add, BitVec.toNat_ofNat, ← Bool.decide_or]
    apply decide_eq_decide.mpr
    omega
  simp [Engine.advance, hcount, ← hcarry, Bool.or_assoc]

/-- FEED8 for each of fewer than 2^32 bytes feeds them all and counts them all. -/
theorem engineAfterAll_feed8 (g : BitVec 24) (bs : List Byte) (e : Engine) (h : bs.length < 2 ^ 32) :
    engineAfterAll (bs.map (Instr.feed8 g)) e = (e.feed bs).advance bs.length := by
  induction bs generalizing e with
  | nil => exact (e.advance_zero).symm
  | cons b bs ih =>
    rw [List.length_cons] at h
    calc engineAfterAll (bs.map (Instr.feed8 g)) ((e.feed [b]).advance 1)
        = (((e.feed [b]).advance 1).feed bs).advance bs.length := ih _ (by omega)
      _ = ((e.feed (b :: bs)).advance 1).advance bs.length := by rw [Engine.feed_advance, Engine.feed_feed, List.singleton_append]
      _ = (e.feed (b :: bs)).advance (b :: bs).length := by
          rw [Engine.advance_advance _ (by omega), Nat.add_comm, List.length_cons]

/-- Settles O36: FEED8 over the word's four bytes feeds and counts what FEED32 does. -/
theorem feed32IsFourFeed8 : Obligations.Feed32IsFourFeed8 := by
  intro v g s
  obtain ⟨u, hrun, hu⟩ := runInstrs_engine ((wordBytes v).map (Instr.feed8 g)) s
  refine ⟨_, u, exec_eq (.feed32 v) s, hrun, ?_⟩
  rw [hu, engineAfterAll_feed8 g (wordBytes v) s.engine (by simp [wordBytes])]
  rfl

/-! ### The wire bytes of a word (R43, R44, R45) -/

theorem packBytes_extractLsb' (v : Word) :
    packBytes (v.extractLsb' 24 8) (v.extractLsb' 16 8) (v.extractLsb' 8 8) (v.extractLsb' 0 8) = v := by
  have hhigh : v.extractLsb' 24 8 ++ v.extractLsb' 16 8 = v.extractLsb' 16 16 :=
    BitVec.extractLsb'_append_extractLsb'_eq_extractLsb' rfl
  have hupper : v.extractLsb' 16 16 ++ v.extractLsb' 8 8 = v.extractLsb' 8 24 :=
    BitVec.extractLsb'_append_extractLsb'_eq_extractLsb' rfl
  rw [packBytes, hhigh, hupper]
  exact BitVec.extractLsb'_append_extractLsb'

theorem wordBytes_packBytes (b0 b1 b2 b3 : Byte) : wordBytes (packBytes b0 b1 b2 b3) = [b0, b1, b2, b3] := by
  have hlowest : (packBytes b0 b1 b2 b3).extractLsb' 0 8 = b3 := BitVec.extractLsb'_append_eq_right
  have habove (k : Nat) : (packBytes b0 b1 b2 b3).extractLsb' (k + 8) 8 = (b0 ++ b1 ++ b2).extractLsb' k 8 :=
    BitVec.extractLsb'_append_eq_of_le (Nat.le_add_left 8 k)
  have hmiddle (k : Nat) : (b0 ++ b1 ++ b2).extractLsb' (k + 8) 8 = (b0 ++ b1).extractLsb' k 8 :=
    BitVec.extractLsb'_append_eq_of_le (Nat.le_add_left 8 k)
  simp only [wordBytes, hlowest, habove 0, habove 8, habove 16, hmiddle 0, hmiddle 8, BitVec.extractLsb'_append_eq_left,
    BitVec.extractLsb'_append_eq_right]

/-- Settles O41: the four bytes cut out of a word join to the word, and four bytes joined are cut apart again. -/
theorem bigEndianRoundTrip : Obligations.BigEndianRoundTrip :=
  ⟨fun v => ⟨_, _, _, _, rfl, packBytes_extractLsb' v⟩, wordBytes_packBytes⟩

end Sys2Proof.Machine

namespace Sys2Proof

/-! ### Decoding and encoding are inverse (R60, R61, R63) -/

/-- A word's command keeps every operand bit, the ignored bits included (R61). -/
theorem operand_decode (w : CmdWord) : (decode w).operand = operandField w := by
  unfold decode
  split
  case h_3 => exact BitVec.extractLsb'_append_extractLsb'
  all_goals rfl

theorem encode_decode (w : CmdWord) : encode (decode w) = w := by
  rw [encode, opcode_decode, operand_decode, cmdWord_fields]

theorem byteOperand_append (ign : BitVec 24) (d : Byte) : byteOperand (ign ++ d) = d :=
  BitVec.extractLsb'_append_eq_right

theorem aboveByte_append (ign : BitVec 24) (d : Byte) : aboveByte (ign ++ d) = ign :=
  BitVec.extractLsb'_append_eq_left

/-- The decoder reads `.reserved` from every reserved opcode. -/
theorem decode_cmdWord_reserved {op : Opcode} (h : reservedOpcode op = true) (v : Word) :
    decode (cmdWord op v) = .reserved op v := by
  have h8 : 8 ≤ op.toNat := of_decide_eq_true h
  unfold decode
  rw [opField_cmdWord, operandField_cmdWord]
  split
  case h_9 => rfl
  all_goals omega

theorem decode_encode {i : Instr} (h : i.wellFormed = true) : decode (encode i) = i := by
  cases i with
  | reserved op ign => exact decode_cmdWord_reserved h ign
  | feed8 ign d => simp [decode, encode, Instr.opcode, Instr.operand, byteOperand_append, aboveByte_append]
  | nop | init | feed32 | read | check | status | count => simp [decode, encode, Instr.opcode, Instr.operand]

/-- Settles O22: no bit of a word is lost in its command, and a command's opcode tells its constructor. -/
theorem decodeEncodeInverse : Obligations.DecodeEncodeInverse :=
  ⟨fun w => ⟨wellFormed_decode w, encode_decode w⟩, fun _ => decode_encode⟩

/-- Settles O21: the ten words, decoded. -/
theorem wordsDecodeAsTheTableSays : Obligations.WordsDecodeAsTheTableSays := by
  unfold Obligations.WordsDecodeAsTheTableSays
  decide

/-! ### The rows of the opcode table (R63) -/

/-- The row of a word's command, read off the opcode field. -/
theorem rowIndex_decode (w : CmdWord) : (decode w).rowIndex = min (opField w).toNat 8 := by
  unfold decode
  split
  case h_9 =>
    simp only [Instr.rowIndex]
    grind
  all_goals simp_all [Instr.rowIndex]

theorem cmdWord_and (op m : Opcode) (v u : Word) : cmdWord op v &&& cmdWord m u = cmdWord (op &&& m) (v &&& u) :=
  BitVec.and_append

/-- A row's pattern and mask speak of the opcode field alone. -/
theorem TableRow.covers_eq {r : TableRow} (hr : r ∈ opcodeTable) (w : CmdWord) :
    r.covers w = (opField w &&& opField r.mask == opField r.pattern) := by
  have hoperand : ∀ r ∈ opcodeTable, operandField r.mask = 0#32 ∧ operandField r.pattern = 0#32 := by decide
  obtain ⟨hmask, hpattern⟩ := hoperand r hr
  have hand : w &&& r.mask = cmdWord (opField w &&& opField r.mask) 0#32 := by
    rw [← BitVec.and_zero (x := operandField w), ← hmask, ← cmdWord_and, cmdWord_fields, cmdWord_fields]
  have hrow : r.pattern = cmdWord (opField r.pattern) 0#32 := by
    rw [← hpattern, cmdWord_fields]
  rw [TableRow.covers, hand, Bool.eq_iff_iff, beq_iff_eq, beq_iff_eq]
  exact ⟨fun h => by rw [← h, opField_cmdWord], fun h => by rw [h, ← hrow]⟩

/-- Settles O23: whether a row covers a word depends on the opcode field alone, and so does the row of the word's command. -/
theorem exactlyOneRowCovers : Obligations.ExactlyOneRowCovers := by
  intro w k hk
  have hopcodes : ∀ (op : Opcode) (k : Fin 9),
      (op &&& opField opcodeTable[k].mask == opField opcodeTable[k].pattern) = decide (k.val = min op.toNat 8) := by decide
  have hlt : k < opcodeTable.length := hk
  rw [List.getElem?_eq_getElem hlt, Option.map_some, TableRow.covers_eq (List.getElem_mem hlt), rowIndex_decode]
  exact congrArg some (hopcodes (opField w) ⟨k, hk⟩)

end Sys2Proof

namespace Sys2Proof.Machine

/-! ### Ignored operand bits (R61) -/

theorem byteOperand_and_readMask (v : Word) : byteOperand (v &&& Format.B.readMask) = byteOperand v := by
  simp only [byteOperand, Format.readMask, BitVec.extractLsb'_and]
  exact BitVec.and_allOnes

/-- A command has the effect of the command with every ignored bit 0. -/
theorem exec_decode_readMask (op : Opcode) (v : Word) (s : State) :
    exec (decode (cmdWord op (v &&& (formatOf op).readMask))) s = exec (decode (cmdWord op v)) s := by
  unfold decode formatOf
  rw [opField_cmdWord, opField_cmdWord, operandField_cmdWord, operandField_cmdWord]
  have hword : v &&& Format.W.readMask = v := BitVec.and_allOnes
  generalize op.toNat = n
  split
  case h_3 => exact congrArg (fun d => execFeed8 0 d s) (byteOperand_and_readMask v)
  case h_4 => simp only [hword]
  case h_6 => simp only [hword]
  all_goals rfl

/-- Settles O24: both words have the effect of the word with the ignored bits 0. -/
theorem ignoredBitsHaveNoEffect : Obligations.IgnoredBitsHaveNoEffect := by
  intro w w' s hop hread
  refine ⟨_, exec_eq (decode w) s, ?_⟩
  rw [← exec_eq, ← cmdWord_fields w, ← cmdWord_fields w', ← exec_decode_readMask, ← hop, ← hread, exec_decode_readMask]

/-! ### The command at the port (R54, R66, R67) -/

theorem decodeTableWord_of_lt {nbits w : Nat} (hbits : 36 ≤ nbits) (h : w < 2 ^ 36) :
    decodeTableWord nbits w = some (decode (BitVec.ofNat 36 w)) := by
  have hmod : w % 2 ^ nbits = w := Nat.mod_eq_of_lt (h.trans_le (Nat.pow_le_pow_right Nat.two_pos hbits))
  simp only [decodeTableWord, hmod, if_pos h]

theorem step_withFetchWord {nbits w : Nat} (hbits : 36 ≤ nbits) (h : w < 2 ^ 36) (s : State) :
    step (s.withFetchWord nbits w) = exec (decode (BitVec.ofNat 36 w)) s := by
  have hmod : w % 2 ^ nbits = w := Nat.mod_eq_of_lt (h.trans_le (Nat.pow_le_pow_right Nat.two_pos hbits))
  rw [State.withFetchWord, hmod]
  rfl

/-- Settles O15: a number of 36 bits is kept whole, and its word stands first at the port. -/
theorem placedWordRunsNext : Obligations.PlacedWordRunsNext := fun s _ h =>
  ⟨step_withFetchWord (by decide) h s, step_withFetchWord (by decide) h s,
    decodeTableWord_of_lt (by decide) h, decodeTableWord_of_lt (by decide) h⟩

/-- Settles O17: the step is the delivery of the oldest response. -/
theorem deliveryTakesOldest : Obligations.DeliveryTakesOldest := by
  intro s rest r later hevents hqueue
  simp [step, hevents, State.deliver, State.withEvents, hqueue]

/-- Settles O18: a command's whole effect puts one response on its way. -/
theorem oneResponsePerCommand : Obligations.OneResponsePerCommand := fun i s =>
  ⟨_, exec_eq i s, by simp⟩

end Sys2Proof.Machine

namespace Sys2Proof.Machine

/-! ### The FEED commands (R46, R69, R101) -/

/-- The record after these bytes, however many and however grouped: fed in order, counted modulo 2^32, the wrap by carry. -/
def Engine.fed (e : Engine) (bytes : List Byte) : Engine :=
  { e with
    crcReg := acc e.crcReg bytes
    count := e.count + BitVec.ofNat 32 bytes.length
    wrap := e.wrap || decide (2 ^ 32 ≤ e.count.toNat + bytes.length) }

theorem Engine.feed_advance_length (e : Engine) {bytes : List Byte} (h : bytes.length < 2 ^ 32) :
    (e.feed bytes).advance bytes.length = e.fed bytes := by
  simp only [Engine.advance, Engine.feed, Engine.fed, countLow_eq, countCarry_eq _ _ h]

theorem Engine.fed_nil (e : Engine) : e.fed [] = e := by
  rw [← Engine.feed_advance_length e (by decide)]
  exact e.advance_zero

/-- Bytes fed in two parts wrap where they wrap together. -/
theorem Engine.fed_append (e : Engine) (as bs : List Byte) : (e.fed as).fed bs = e.fed (as ++ bs) := by
  have hcrc : acc (acc e.crcReg as) bs = acc e.crcReg (as ++ bs) := (acc_concat ..).symm
  have hcount : e.count + BitVec.ofNat 32 as.length + BitVec.ofNat 32 bs.length = e.count + BitVec.ofNat 32 (as ++ bs).length := by
    rw [List.length_append, BitVec.ofNat_add, BitVec.add_assoc]
  have hwrap : ((e.wrap || decide (2 ^ 32 ≤ e.count.toNat + as.length)) ||
      decide (2 ^ 32 ≤ (e.count + BitVec.ofNat 32 as.length).toNat + bs.length)) =
      (e.wrap || decide (2 ^ 32 ≤ e.count.toNat + (as ++ bs).length)) := by
    have := e.count.isLt
    rw [Bool.or_assoc, ← Bool.decide_or, BitVec.toNat_add, BitVec.toNat_ofNat, List.length_append]
    congr 1
    apply decide_eq_decide.mpr
    omega
  exact (Engine.mk.injEq ..).mpr ⟨hcrc, hcount, rfl, rfl, rfl, hwrap⟩

/-- A FEED feeds and counts its bytes, and answers 0 (R104, R105). -/
theorem exec_of_isFeed {i : Instr} (h : isFeed i = true) (s : State) :
    exec i s = .next ((s.withEngine (s.engine.fed (fedBytes i))).respond 0#32) := by
  rw [exec_eq]
  cases i with
  | feed8 | feed32 =>
    rw [← Engine.feed_advance_length _ (by simp [fedBytes, wordBytes])]
    rfl
  | nop | init | read | check | status | count | reserved => simp [isFeed, fedBytes] at h

/-- The state after FEEDs of these bytes in `n` commands. -/
def State.fed (s : State) (bytes : List Byte) (n : Nat) : State :=
  { s with
    engine := s.engine.fed bytes
    inFlight := s.inFlight ++ List.replicate n { value := 0#32, age := 0 } }

/-- FEEDs one after another feed their bytes in order, and each answers 0. -/
theorem runInstrs_of_all_isFeed {is : List Instr} (h : is.all isFeed = true) (s : State) :
    runInstrs is s = .next (s.fed (is.flatMap fedBytes) is.length) := by
  induction is generalizing s with
  | nil => simp [runInstrs, State.fed, Engine.fed_nil]
  | cons i is ih =>
    obtain ⟨hi, his⟩ : isFeed i = true ∧ is.all isFeed = true := by simpa using h
    simp only [runInstrs, exec_of_isFeed hi, ih his]
    simp [State.fed, State.respond, State.withEngine, Engine.fed_append, List.replicate_succ]

/-! ### FEEDBYTES (R69) -/

theorem feedBytes_all_isFeed (M : List Byte) : (feedBytes M).all isFeed = true := by
  fun_induction feedBytes M with
  | case5 a b c d rest ih => simp [ih, isFeed, fedBytes, wordBytes]
  | case1 | case2 | case3 | case4 => rfl

theorem flatMap_fedBytes_feedBytes (M : List Byte) : (feedBytes M).flatMap fedBytes = M := by
  fun_induction feedBytes M with
  | case5 a b c d rest ih => simp [ih, fedBytes, wordBytes_packBytes]
  | case1 | case2 | case3 | case4 => rfl

theorem length_feedBytes (M : List Byte) : (feedBytes M).length = M.length / 4 + M.length % 4 := by
  fun_induction feedBytes M with
  | case5 a b c d rest ih => simp only [List.length_cons, ih]; omega
  | case1 | case2 | case3 | case4 => simp

/-- The k-th command of the expansion is the k-th full group of four bytes. -/
theorem feedBytes_getElem?_word (M : List Byte) (k : Nat) (h : k < M.length / 4) :
    (feedBytes M)[k]? = some (.feed32 (packBytes (M.getD (4 * k) 0) (M.getD (4 * k + 1) 0) (M.getD (4 * k + 2) 0)
      (M.getD (4 * k + 3) 0))) := by
  fun_induction feedBytes M generalizing k with
  | case5 a b c d rest ih =>
    cases k with
    | zero => rfl
    | succ k =>
      simp only [List.length_cons] at h
      exact ih k (by omega)
  | case1 | case2 | case3 | case4 => simp at h

/-- After the full groups stands a FEED8 for each byte left. -/
theorem drop_feedBytes (M : List Byte) :
    (feedBytes M).drop (M.length / 4) = (M.drop (4 * (M.length / 4))).map (.feed8 0) := by
  fun_induction feedBytes M with
  | case5 a b c d rest ih =>
    have hdiv : (a :: b :: c :: d :: rest).length / 4 = rest.length / 4 + 1 := by simp only [List.length_cons]; omega
    rw [hdiv]
    exact ih
  | case1 | case2 | case3 | case4 => simp

theorem feedBytes_getElem?_rest (M : List Byte) (j : Nat) (h : j < M.length % 4) :
    (feedBytes M)[M.length / 4 + j]? = some (.feed8 0 (M.getD (4 * (M.length / 4) + j) 0)) := by
  have hlt : 4 * (M.length / 4) + j < M.length := by omega
  rw [← List.getElem?_drop, drop_feedBytes, List.getElem?_map, List.getElem?_drop, List.getElem?_eq_getElem hlt,
    List.getD_eq_getElem _ _ hlt, Option.map_some]

/-- FEEDBYTES from any state: the record fed, and one answer 0 for each command. -/
theorem runInstrs_feedBytes (M : List Byte) (s : State) :
    runInstrs (feedBytes M) s = .next (s.fed M (M.length / 4 + M.length % 4)) := by
  rw [runInstrs_of_all_isFeed (feedBytes_all_isFeed M), flatMap_fedBytes_feedBytes, length_feedBytes]

/-- Settles O38: the expansion by recursion on the groups of four, and its effect as that of FEEDs of the same bytes. -/
theorem feedBytesFeedsItsBytes : Obligations.FeedBytesFeedsItsBytes :=
  ⟨length_feedBytes, feedBytes_getElem?_word, feedBytes_getElem?_rest, runInstrs_feedBytes⟩

/-! ### The chunk pseudo-commands (R71) -/

/-- Bit 0 of the STATUS word is MISMATCH (R29). -/
theorem statusWord_getLsbD_zero (e : Engine) : (statusWord e).getLsbD 0 = e.mismatch := by
  rw [statusWord, BitVec.getLsbD_append]
  simp

/-- What CHUNKCRC and CHUNKCHECK have in common: their last commands find the record INIT leaves, with the whole chunk fed. -/
theorem runInstrs_chunk (type : Word) (data : List Byte) (last : List Instr) (s : State) :
    runInstrs ([.init 0, .feed32 type] ++ feedBytes data ++ last) s =
      runInstrs last (((s.withEngine Engine.reset).respond 0#32).fed (chunkMessage type data) ((feedBytes data).length + 1)) := by
  have hfeeds : (Instr.feed32 type :: feedBytes data).all isFeed = true := feedBytes_all_isFeed data
  have hbytes : (Instr.feed32 type :: feedBytes data).flatMap fedBytes = chunkMessage type data :=
    congrArg (wordBytes type ++ ·) (flatMap_fedBytes_feedBytes data)
  show runInstrs (.init 0 :: ((.feed32 type :: feedBytes data) ++ last)) s = _
  rw [runInstrs_cons, runInstrs_append, runInstrs_of_all_isFeed hfeeds, hbytes]
  rfl

/-- The register right after a whole chunk gives the chunk's CRC (R87, R88). -/
theorem finalValue_fed_reset (s : State) (M : List Byte) (n : Nat) :
    finalValue (((s.withEngine Engine.reset).respond 0#32).fed M n).engine.crcReg = crc32 M := rfl

/-- A command's response is the youngest in flight (R67). -/
theorem State.getLast?_respond (s : State) (v : Word) :
    (s.respond v).inFlight.getLast? = some { value := v, age := 0 } :=
  List.getLast?_concat

/-- Settles O39: the register that READ, CHECK and STATUS find is that of the chunk's message. -/
theorem chunkPseudoCommandsComputeAndCheck : Obligations.ChunkPseudoCommandsComputeAndCheck := by
  refine ⟨fun _ _ => rfl, fun _ _ _ => rfl, fun type data s => ?_, fun type data stored s => ?_⟩
  · refine ⟨_, runInstrs_chunk type data [.read 0] s, ?_⟩
    rw [← chunkMessage, ← finalValue_fed_reset s]
    exact State.getLast?_respond ..
  · refine ⟨_, _, runInstrs_chunk type data [.check stored, .status 0] s, State.getLast?_respond .., ?_⟩
    simp only [statusWord_getLsbD_zero, State.respond_engine, State.withEngine_engine, Engine.compare_mismatch,
      mismatchOf, finalValue_fed_reset, bne_iff_ne, chunkMessage, ne_eq]

end Sys2Proof.Machine

namespace Sys2Proof.Machine

/-! ### One edge and the responses in flight (R67) -/

/-- Settles O49: the edge is an accepted command and a tick, or a tick alone, and a tick holds the record. -/
theorem acceptanceNeedsBothWires : Obligations.AcceptanceNeedsBothWires := by
  intro inp s hrst
  refine ⟨_, edge_eq inp s, fun hvalid hready => ⟨_, exec_eq _ s, ?_⟩, fun hlow => ?_⟩
  · simp [State.accepts, hrst, hvalid, hready]
  · have hacc : s.accepts inp = false := by
      obtain h | h := hlow <;> simp [State.accepts, h]
    simp [hrst, hacc]

/-- What a tick leaves before it decides the response wires: the counters moved on and the responses older. -/
def State.aged (s : State) (accepted : Bool) : State :=
  { s with inFlight := s.inFlight.map Response.older, port := s.port.tick accepted }

theorem State.tick_eq_emit_aged (s : State) (accepted : Bool) : s.tick accepted = (s.aged accepted).emit := rfl

/-- The port inside an edge, before the response wires are decided: as `PortInv`, but a response may have waited RSP_LATENCY edges. -/
def DueInv (s : State) : Prop :=
  (s.inFlight.map Response.age).Pairwise (fun older younger => younger + Config.cmdInterval ≤ older) ∧
  (∀ r ∈ s.inFlight, 1 ≤ r.age ∧ r.age ≤ Config.rspLatency ∧ ∃ k, s.port.sinceAccept = some k ∧ k ≤ r.age)

/-- Growing older together keeps the spacing. -/
theorem pairwise_spaced_older {rs : List Response}
    (h : (rs.map Response.age).Pairwise (fun older younger => younger + Config.cmdInterval ≤ older)) :
    ((rs.map Response.older).map Response.age).Pairwise (fun older younger => younger + Config.cmdInterval ≤ older) := by
  rw [List.map_map, List.pairwise_map]
  refine (List.pairwise_map.mp h).imp fun hspaced => ?_
  simp only [Function.comp_apply, Response.older_age]
  omega

/-- A response behind the oldest is younger than it. -/
theorem DueInv.age_lt_of_mem_tail {s : State} (h : DueInv s) {oldest r : Response} {rest : List Response}
    (hq : s.inFlight = oldest :: rest) (hr : r ∈ rest) : r.age < oldest.age := by
  have hspaced := h.1
  rw [hq, List.map_cons] at hspaced
  have := List.rel_of_pairwise_cons hspaced (List.mem_map_of_mem hr)
  simp only [Config.cmdInterval] at this
  omega

/-- Without an acceptance every response, and the count since the last acceptance, moves on by one. -/
theorem PortInv.aged {s : State} (h : PortInv s) : DueInv (s.aged false) := by
  obtain ⟨hspaced, hbounds⟩ := h
  refine ⟨pairwise_spaced_older hspaced, fun r hr => ?_⟩
  obtain ⟨r, hmem, rfl⟩ := List.mem_map.mp hr
  obtain ⟨-, hyoung, k, hk, hle⟩ := hbounds r hmem
  refine ⟨by simp, hyoung, k + 1, by simp [State.aged, hk], ?_⟩
  rw [Response.older_age]
  omega

/-- An acceptance, which CMD_INTERVAL has allowed, puts a response of age 1 behind the others. -/
theorem PortInv.respond_aged {s : State} (h : PortInv s) (hready : s.cmdReady = true) (e : Engine) (v : Word) :
    DueInv (((s.withEngine e).respond v).aged true) := by
  obtain ⟨hspaced, hbounds⟩ := h
  have hflight : (((s.withEngine e).respond v).aged true).inFlight =
      s.inFlight.map Response.older ++ [{ value := v, age := 1 }] := by
    simp [State.aged, Response.older]
  refine ⟨?_, ?_⟩
  · rw [hflight, List.map_append, List.pairwise_append]
    refine ⟨pairwise_spaced_older hspaced, List.pairwise_singleton .., fun older ho younger hy => ?_⟩
    obtain ⟨_, hmem, rfl⟩ := List.mem_map.mp ho
    obtain ⟨r, hr, rfl⟩ := List.mem_map.mp hmem
    obtain rfl : younger = 1 := by simpa using hy
    obtain ⟨-, -, k, hk, hle⟩ := hbounds r hr
    have := State.cmdReady_spaced hready hk
    rw [Response.older_age]
    omega
  · rw [hflight]
    intro r hr
    have hone : 1 ≤ r.age ∧ r.age ≤ Config.rspLatency := by
      obtain hr | hr := List.mem_append.mp hr
      · obtain ⟨r, hmem, rfl⟩ := List.mem_map.mp hr
        exact ⟨by simp, (hbounds r hmem).2.1⟩
      · rw [List.mem_singleton.mp hr]
        exact ⟨le_rfl, Nat.le_add_left 1 _⟩
    exact ⟨hone.1, hone.2, 1, rfl, hone.1⟩

/-- Delivering the response that is due leaves the younger ones. -/
theorem DueInv.emit {s : State} (h : DueInv s) : PortInv s.emit := by
  obtain ⟨oldest, rest, hq, -, hemit⟩ | ⟨hyoung, hemit⟩ := s.emit_cases
  · rw [hemit]
    have hlt := fun r => h.age_lt_of_mem_tail (r := r) hq
    obtain ⟨hspaced, hbounds⟩ := h
    rw [hq] at hspaced hbounds
    refine ⟨hspaced.of_cons, fun r hr => ?_⟩
    obtain ⟨hone, -, hsince⟩ := hbounds r (List.mem_cons_of_mem _ hr)
    exact ⟨hone, (hlt r hr).trans_le (hbounds oldest List.mem_cons_self).2.1, hsince⟩
  · rw [hemit]
    refine ⟨h.1, fun r hr => ?_⟩
    obtain ⟨hone, -, hsince⟩ := h.2 r hr
    refine ⟨hone, ?_, hsince⟩
    obtain ⟨oldest, rest, hq⟩ := List.exists_cons_of_ne_nil (List.ne_nil_of_mem hr)
    have hold := hyoung oldest rest hq
    obtain rfl | htail := List.mem_cons.mp (hq ▸ hr)
    · exact hold
    · exact (h.age_lt_of_mem_tail hq htail).trans hold

/-- An edge without reset is a tick of a state of the invariant with the responses in flight, and the accepted command's behind them. -/
theorem edge_of_not_rst {inp : PortInput} {s : State} (h : PortInv s) (hrst : inp.rst = false) :
    ∃ d : State, edge inp s = .next d.emit ∧ DueInv d ∧ (∀ r ∈ s.inFlight, r.older ∈ d.inFlight) ∧
      (s.accepts inp = true → { value := responseOf (decode inp.word) s.engine, age := 1 } ∈ d.inFlight) := by
  rw [edge_eq, hrst, if_neg Bool.false_ne_true]
  by_cases hacc : s.accepts inp = true
  · have hready : s.cmdReady = true := by
      simp only [State.accepts, Bool.and_eq_true] at hacc
      exact hacc.1.2
    rw [if_pos hacc, State.tick_eq_emit_aged]
    exact ⟨_, rfl, h.respond_aged hready _ _, fun r hr => by simpa [State.aged] using .inl ⟨r, hr, rfl⟩,
      fun _ => by simp [State.aged, Response.older]⟩
  · rw [if_neg hacc, State.tick_eq_emit_aged]
    exact ⟨_, rfl, h.aged, fun r hr => List.mem_map_of_mem hr, fun hyes => absurd hyes hacc⟩

/-- Settles O50: a reset leaves nothing in flight; any other edge grows the responses older and delivers the one that is due. -/
theorem edgeKeepsPortInvariant : Obligations.EdgeKeepsPortInvariant := by
  intro inp s t hinv hedge
  cases hrst : inp.rst with
  | true =>
    rw [edge_eq, hrst, if_pos rfl, Host.Outcome.next.injEq] at hedge
    subst hedge
    simp [PortInv]
  | false =>
    obtain ⟨d, hd, hdue, -, -⟩ := edge_of_not_rst hinv hrst
    rw [hd, Host.Outcome.next.injEq] at hedge
    subst hedge
    exact hdue.emit

/-! ### A response from its acceptance to the wires (R67) -/

/-- The response is where its age says: in flight before RSP_LATENCY edges have passed, and on the wires then. -/
def State.Shows (s : State) (r : Response) : Prop :=
  if r.age = Config.rspLatency then s.rspValid = true ∧ s.rspData = r.value else r ∈ s.inFlight

/-- The response that is due is the oldest, so it goes to the wires; every other stays. -/
theorem DueInv.emit_shows {s : State} (h : DueInv s) {r : Response} (hr : r ∈ s.inFlight) : s.emit.Shows r := by
  have hle : r.age ≤ Config.rspLatency := (h.2 r hr).2.1
  unfold State.Shows
  obtain ⟨oldest, rest, hq, hold, hemit⟩ | ⟨hyoung, hemit⟩ := s.emit_cases
  · rw [hemit]
    have hlatest : oldest.age ≤ Config.rspLatency := (h.2 oldest (by simp [hq])).2.1
    obtain rfl | htail := List.mem_cons.mp (hq ▸ hr)
    · rw [if_pos (by omega)]
      exact ⟨rfl, rfl⟩
    · have := h.age_lt_of_mem_tail hq htail
      rw [if_neg (by omega)]
      exact htail
  · have hlt := (h.emit.2 r (by rw [hemit]; exact hr)).2.1
    rw [if_neg (by omega), hemit]
    exact hr

/-- Edges without reset bring a response in flight nearer to the wires, one each, whatever else they carry. -/
theorem runEdges_shows (later : List PortInput) {t : State} {r : Response} (hinv : PortInv t) (hr : t.Shows r)
    (hrst : ∀ x ∈ later, x.rst = false) (hlen : r.age + later.length ≤ Config.rspLatency) :
    ∃ u, runEdges later t = .next u ∧ u.Shows { r with age := r.age + later.length } := by
  induction later generalizing t r with
  | nil => exact ⟨t, rfl, hr⟩
  | cons x later ih =>
    rw [List.length_cons] at hlen
    have hflight : r ∈ t.inFlight := by rwa [State.Shows, if_neg (by omega)] at hr
    obtain ⟨d, hd, hdue, holder, -⟩ := edge_of_not_rst hinv (hrst x List.mem_cons_self)
    obtain ⟨u, hu, hshows⟩ := ih hdue.emit (hdue.emit_shows (holder r hflight))
      (fun y hy => hrst y (List.mem_cons_of_mem _ hy)) (by rw [Response.older_age]; omega)
    refine ⟨u, by simp only [runEdges, hd, hu], ?_⟩
    rwa [Response.older_age, Nat.add_assoc, Nat.add_comm 1] at hshows

/-- Settles O52: the accepted command's response has age 1 after its edge, and every later edge adds one. -/
theorem responseAfterLatency : Obligations.ResponseAfterLatency := by
  intro inp s t later hinv hrst hvalid hready hedge hlater hlen
  obtain ⟨d, hd, hdue, -, hnew⟩ := edge_of_not_rst hinv hrst
  rw [hd, Host.Outcome.next.injEq] at hedge
  subst hedge
  have hacc : s.accepts inp = true := by simp [State.accepts, hrst, hvalid, hready]
  rw [Nat.add_comm] at hlen ⊢
  exact runEdges_shows later hdue.emit (hdue.emit_shows (hnew hacc)) hlater hlen

/-! ### The spacing of acceptances (R67) -/

/-- At most `n` edges have passed since the last acceptance. -/
def Port.AcceptedWithin (p : Port) (n : Nat) : Prop := ∃ k, p.sinceAccept = some k ∧ k ≤ n

theorem edge_acceptedWithin_of_accepts {inp : PortInput} {s t : State} (hacc : s.accepts inp = true) (h : edge inp s = .next t) :
    t.port.AcceptedWithin 1 := by
  have hrst : inp.rst = false := by
    simp only [State.accepts, Bool.and_eq_true, Bool.not_eq_true'] at hacc
    exact hacc.2
  rw [edge_eq, hrst, if_neg Bool.false_ne_true, if_pos hacc, Host.Outcome.next.injEq] at h
  rw [← h, State.tick_port]
  exact ⟨1, rfl, le_rfl⟩

/-- Every edge, a reset edge too, counts on from the last acceptance or begins anew. -/
theorem edge_acceptedWithin {inp : PortInput} {s t : State} {n : Nat} (h : edge inp s = .next t)
    (hs : s.port.AcceptedWithin n) : t.port.AcceptedWithin (n + 1) := by
  obtain ⟨k, hk, hle⟩ := hs
  by_cases hacc : s.accepts inp = true
  · obtain ⟨j, hj, hone⟩ := edge_acceptedWithin_of_accepts hacc h
    exact ⟨j, hj, by omega⟩
  · refine ⟨k + 1, ?_, by omega⟩
    rw [edge_eq, if_neg hacc, Host.Outcome.next.injEq] at h
    rw [← h]
    split
    · simp [hk]
    · rw [State.tick_port]
      simp [hk]

theorem runEdges_acceptedWithin (between : List PortInput) {t u : State} {n : Nat} (h : runEdges between t = .next u)
    (ht : t.port.AcceptedWithin n) : u.port.AcceptedWithin (n + between.length) := by
  induction between generalizing t n with
  | nil =>
    rw [runEdges, Host.Outcome.next.injEq] at h
    exact h ▸ ht
  | cons x between ih =>
    obtain ⟨t', hx⟩ : ∃ t', edge x t = .next t' := ⟨_, edge_eq x t⟩
    simp only [runEdges, hx] at h
    have := ih h (edge_acceptedWithin hx ht)
    rwa [List.length_cons, Nat.add_comm between.length, ← Nat.add_assoc]

/-- Settles O53: `cmd_ready` is 0 as long as the last acceptance lies fewer than CMD_INTERVAL edges back. -/
theorem acceptancesAreSpaced : Obligations.AcceptancesAreSpaced := by
  intro first second s t u between hfirst hedge hrun hsecond
  obtain ⟨k, hk, hle⟩ := runEdges_acceptedWithin between hrun (edge_acceptedWithin_of_accepts hfirst hedge)
  have hready : u.cmdReady = true := by
    simp only [State.accepts, Bool.and_eq_true] at hsecond
    exact hsecond.1.2
  have := State.cmdReady_spaced hready hk
  omega

/-! ### The assembler (R68) -/

theorem isSome_asciiByte (c : Char) : (asciiByte c).isSome = asciiChar c := by
  by_cases h : c.toNat < 128 <;> simp [asciiByte, asciiChar, h]

theorem isSome_wordValue (n : Nat) : (wordValue n).isSome = decide (n ≤ 0xFFFFFFFF) := by
  by_cases h : n ≤ 0xFFFFFFFF <;> simp [wordValue, h]

theorem isSome_reservedLiteral (op : Nat) : (reservedLiteral op).isSome = (decide (8 ≤ op) && decide (op ≤ 15)) := by
  rw [reservedLiteral, ← Bool.decide_and]
  split
  · next h => exact (decide_eq_true h).symm
  · next h => exact (decide_eq_false h).symm

theorem isSome_byteLiteral (x : Literal) : (byteLiteral x).isSome = x.isByte := by
  unfold byteLiteral
  split
  · next n => by_cases h : n ≤ 255 <;> simp [Literal.isByte, h]
  · next c => simp [Literal.isByte, isSome_asciiByte]
  · next cs hcs =>
    have hlen : cs.length ≠ 1 := fun h => by
      obtain ⟨c, rfl⟩ := List.length_eq_one_iff.mp h
      exact hcs c rfl
    simp [Literal.isByte, hlen]

theorem isSome_wordLiteral (x : Literal) : (wordLiteral x).isSome = x.isWord := by
  unfold wordLiteral
  split
  · next n => exact isSome_wordValue n
  · next a b c d =>
    simp only [Literal.isWord, List.all_cons, List.all_nil, ← isSome_asciiByte]
    cases asciiByte a <;> cases asciiByte b <;> cases asciiByte c <;> cases asciiByte d <;> rfl
  · next cs hcs =>
    have hlen : cs.length ≠ 4 := fun h => by
      obtain ⟨a, b, c, d, rfl⟩ := List.length_eq_four.mp h
      exact hcs a b c d rfl
    simp [Literal.isWord, hlen]

theorem isSome_byteLiterals (xs : List Literal) : (byteLiterals xs).isSome = xs.all Literal.isByte := by
  induction xs with
  | nil => rfl
  | cons x xs ih =>
    rw [List.all_cons, ← ih, ← isSome_byteLiteral, byteLiterals]
    cases byteLiteral x <;> cases byteLiterals xs <;> rfl

/-- A statement expands exactly where its values are in range. -/
theorem isSome_expand (st : Stmt) : st.expand.isSome = st.inRange := by
  cases st with
  | nop | init | read | status | count | feedstr => rfl
  | feed8 x => exact Option.isSome_map.trans (isSome_byteLiteral x)
  | feed32 x => exact Option.isSome_map.trans (isSome_wordLiteral x)
  | check n => exact Option.isSome_map.trans (isSome_wordValue n)
  | rsvd op => exact Option.isSome_map.trans (isSome_reservedLiteral op)
  | feedbytes bytes => exact Option.isSome_map.trans (isSome_byteLiterals bytes)
  | chunkcrc type bytes =>
    rw [Stmt.inRange, ← isSome_wordLiteral, ← isSome_byteLiterals, Stmt.expand]
    cases wordLiteral type <;> cases byteLiterals bytes <;> rfl
  | chunkcheck type bytes stored =>
    rw [Stmt.inRange, ← isSome_wordLiteral, ← isSome_byteLiterals, ← isSome_wordValue, Stmt.expand]
    cases wordLiteral type <;> cases byteLiterals bytes <;> cases wordValue stored <;> rfl

/-- Settles O58: encoding fails on no command, so a statement assembles where it expands. -/
theorem assemblesExactlyInRange : Obligations.AssemblesExactlyInRange := fun st =>
  Option.isSome_map.trans (isSome_expand st)

/-- FEED8 puts its byte in the operand field with zeros above it (R62). -/
theorem encode_feed8_zero {n : Nat} (h : n ≤ 255) :
    encode (.feed8 0 (BitVec.ofNat 8 n)) = cmdWord 0x2#4 (BitVec.ofNat 32 n) := by
  have hwhole : (0#24 ++ BitVec.ofNat 8 n : Word) = BitVec.ofNat 32 n := by
    apply BitVec.eq_of_toNat_eq
    rw [BitVec.toNat_append, BitVec.toNat_ofNat, BitVec.toNat_ofNat, BitVec.toNat_ofNat, Nat.mod_eq_of_lt (by omega : n < 2 ^ 8),
      Nat.mod_eq_of_lt (by omega : n < 2 ^ 32), Nat.zero_mod, Nat.zero_shiftLeft, Nat.zero_or]
  exact congrArg (cmdWord 0x2#4) hwhole

/-- Settles O59: each value is in range, and its command's operand field is the value itself. -/
theorem assembledWordsCarryTheirValues : Obligations.AssembledWordsCarryTheirValues := by
  refine ⟨fun n h => ?_, fun n h => ?_, fun n h => ?_, fun op h8 h15 => ?_, rfl, rfl, rfl, rfl, rfl⟩
  · rw [← encode_feed8_zero h]
    simp [Stmt.assemble, Stmt.expand, byteLiteral, h]
  · simp [Stmt.assemble, Stmt.expand, wordLiteral, wordValue, h, encode, Instr.opcode, Instr.operand]
  · simp [Stmt.assemble, Stmt.expand, wordValue, h, encode, Instr.opcode, Instr.operand]
  · simp [Stmt.assemble, Stmt.expand, reservedLiteral, h8, h15, encode, Instr.opcode, Instr.operand]

end Sys2Proof.Machine

namespace Sys2Proof.Machine

/-! ### The record and the message fed (R9, R28, R30, R85) -/

/-- Feeding and counting bytes makes the record that of the message with those bytes behind it. -/
theorem Tracks.fed {M : List Byte} {e : Engine} (h : Tracks M e) (bytes : List Byte) : Tracks (M ++ bytes) (e.fed bytes) := by
  obtain ⟨hcrc, hcount, hwrap⟩ := h
  refine ⟨?_, ?_, ?_⟩
  · rw [Engine.fed, hcrc, acc_concat]
  · rw [Engine.fed, hcount, List.length_append, BitVec.ofNat_add]
  · rw [Engine.fed, hcount, hwrap, ← Bool.decide_or, BitVec.toNat_ofNat, List.length_append]
    apply decide_eq_decide.mpr
    omega

/-- What a FEED writes: its bytes fed and counted (R104, R105). -/
theorem engineAfter_of_isFeed {i : Instr} (h : isFeed i = true) (e : Engine) : engineAfter i e = e.fed (fedBytes i) := by
  cases i with
  | feed8 | feed32 =>
    rw [← Engine.feed_advance_length _ (by simp [fedBytes, wordBytes])]
    rfl
  | nop | init | read | check | status | count | reserved => simp [isFeed, fedBytes] at h

/-- INIT begins a message, a FEED appends its bytes, and no other command writes what the record says of the message. -/
theorem Tracks.engineAfter {M : List Byte} {e : Engine} (h : Tracks M e) (i : Instr) :
    Tracks (messageAfter i M) (engineAfter i e) := by
  cases i with
  | init => exact tracks_nil_reset
  | feed8 | feed32 =>
    rw [engineAfter_of_isFeed rfl]
    exact h.fed _
  | nop | read | check | status | count | reserved => exact h

/-- Settles O42: a step holds the record and the message, clears both, or is a command. -/
theorem recordTracksMessage : Obligations.RecordTracksMessage := by
  intro M s t h hstep
  obtain ⟨hev, rfl⟩ | ⟨w, rest, hev, rfl⟩ | ⟨rest, hev, rfl⟩ | ⟨rest, hev, rfl⟩ := step_cases hstep <;>
    rw [State.messageByStep, hev]
  · exact h
  · exact h.engineAfter (decode w)
  · rw [State.deliver_engine]
    exact h
  · exact tracks_nil_reset

/-- Settles O37: what FEEDs leave of the record depends on their bytes alone. -/
theorem feedGroupingDoesNotMatter : Obligations.FeedGroupingDoesNotMatter := by
  intro is js s his hjs hbytes
  refine ⟨_, _, runInstrs_of_all_isFeed his s, runInstrs_of_all_isFeed hjs s, ?_⟩
  rw [State.fed, State.fed, hbytes]

end Sys2Proof.Machine

namespace Sys2Proof.Machine

/-! ### The bit step (R81) -/

/-- The bits after a bit step: the register shifted down, with the feedback bit where the polynomial has one. -/
theorem getLsbD_step1 (c : Word) (b : Bool) (i : Nat) :
    (step1 c b).getLsbD i = (c.getLsbD (i + 1) ^^ ((c.getLsbD 0 ^^ b) && crcPoly.getLsbD i)) := by
  unfold step1
  cases c.getLsbD 0 ^^ b <;> simp [Nat.add_comm]

/-- The top bit after a bit step is the feedback bit: the shift brings in 0, and the polynomial has bit 31. -/
theorem getLsbD_step1_top (c : Word) (b : Bool) : (step1 c b).getLsbD 31 = (c.getLsbD 0 ^^ b) := by
  have hshift : c.getLsbD (31 + 1) = false := BitVec.getLsbD_of_ge c 32 le_rfl
  have hpoly : crcPoly.getLsbD 31 = true := by decide
  rw [getLsbD_step1, hshift, hpoly, Bool.and_true, Bool.false_xor]

/-- The bit step is linear over GF(2) in the register and the input bit together. -/
theorem step1_xor (c c' : Word) (b b' : Bool) : step1 (c ^^^ c') (b ^^ b') = step1 c b ^^^ step1 c' b' := by
  apply BitVec.eq_of_getLsbD_eq
  intro i _
  simp only [getLsbD_step1, BitVec.getLsbD_xor]
  cases crcPoly.getLsbD i
  · simp
  · simp only [Bool.and_true, Bool.xor_assoc, Bool.xor_left_comm]

/-- A register bit fed as it comes to the low end feeds nothing back. -/
theorem step1_own_bit (c : Word) (k : Nat) : step1 (c >>> k) (c.getLsbD k) = c >>> (k + 1) := by
  simp [step1, BitVec.shiftRight_add]

theorem feedBits_own_bits (c : Word) (k n : Nat) :
    feedBits (c >>> k) ((List.range n).map fun j => c.getLsbD (k + j)) = c >>> (k + n) := by
  induction n with
  | zero => rfl
  | succ n ih =>
    rw [List.range_succ, List.map_append, feedBits_concat, ih]
    exact step1_own_bit c (k + n)

/-! ### The byte step and the stream fold (R82, R85, R89) -/

/-- The byte step is linear over GF(2) in the register and the byte together. -/
theorem step8_xor (c c' : Word) (d d' : Byte) : step8 (c ^^^ c') (d ^^^ d') = step8 c d ^^^ step8 c' d' := by
  simp only [step8, byteBits, feedBits_cons, feedBits_nil, BitVec.getLsbD_xor, step1_xor]

/-- So is the stream fold, in the register and the message together. -/
theorem acc_xor (c c' : Word) {M M' : List Byte} (h : M.length = M'.length) :
    acc (c ^^^ c') (List.zipWith (· ^^^ ·) M M') = acc c M ^^^ acc c' M' := by
  induction M generalizing c c' M' with
  | nil =>
    obtain rfl : M' = [] := List.length_eq_zero_iff.mp h.symm
    rfl
  | cons d M ih =>
    obtain ⟨d', M', rfl⟩ := List.exists_cons_of_length_eq_add_one h.symm
    rw [List.zipWith_cons_cons, acc_cons, acc_cons, acc_cons, step8_xor, ih _ _ (Nat.succ.inj h)]

theorem zipWith_xor_zeros (M : List Byte) : List.zipWith (· ^^^ ·) M (List.replicate M.length 0#8) = M := by
  induction M with
  | nil => rfl
  | cons d M ih => rw [List.length_cons, List.replicate_succ, List.zipWith_cons_cons, ih, BitVec.xor_zero]

theorem acc_xor_register (c c' : Word) (M : List Byte) :
    acc (c ^^^ c') M = acc c M ^^^ acc c' (List.replicate M.length 0#8) := by
  rw [← acc_xor c c' List.length_replicate.symm, zipWith_xor_zeros]

/-- Settles O29: composition is that of the fold, affinity and split are its linearity. -/
theorem streamFoldLaws : Obligations.StreamFoldLaws := by
  refine ⟨acc_concat, acc_xor_register, fun c M => ?_⟩
  rw [BitVec.xor_comm, ← acc_xor_register, BitVec.zero_xor]

/-- The register's own byte, fed as it comes to the low end, feeds nothing back. -/
theorem step8_own_byte (c : Word) (k : Nat) : step8 (c >>> k) (c.extractLsb' k 8) = c >>> (k + 8) := by
  have hbits : byteBits (c.extractLsb' k 8) = (List.range 8).map fun j => c.getLsbD (k + j) := by
    simp [byteBits, List.range_succ]
  rw [step8, hbits, feedBits_own_bits]

theorem step8_low_byte (c : Word) : step8 c (c.extractLsb' 0 8) = c >>> 8 := step8_own_byte c 0

/-- Only the exclusive-or of the byte with the register's low byte feeds back; the rest of the register shifts (R83). -/
theorem step8_eq_xor_shift (c : Word) (d : Byte) : step8 c d = step8 0#32 (c.extractLsb' 0 8 ^^^ d) ^^^ (c >>> 8) := by
  have hbyte : c.extractLsb' 0 8 ^^^ d ^^^ c.extractLsb' 0 8 = d := by
    rw [BitVec.xor_comm, ← BitVec.xor_assoc, BitVec.xor_self, BitVec.zero_xor]
  rw [← step8_low_byte c, ← step8_xor, hbyte, BitVec.zero_xor]

end Sys2Proof.Machine

namespace Sys2Proof.Machine

/-! ### The table form (R83) -/

set_option maxRecDepth 8000 in
/-- The 256 entries as they stand in R83, each computed. -/
theorem crcTable_eq : crcTable = (List.range 256).map fun i => step8 0#32 (BitVec.ofNat 8 i) := by
  decide

theorem tableEntry_eq (i : Byte) : tableEntry i = step8 0#32 i := by
  rw [tableEntry, crcTable_eq]
  simp [i.isLt]

/-- Settles O26: the table holds the byte steps from 0, which are what feeds back. -/
theorem tableFormIsByteStep : Obligations.TableFormIsByteStep := by
  refine ⟨tableEntry_eq, fun c d => ?_⟩
  rw [tableEntry_eq]
  exact step8_eq_xor_shift c d

/-! ### The byte-parallel equations (R84) -/

/-- What feeds back from a byte, a column for each of its bits: bits 0 and 1 feed back twice, since the polynomial brings them to the low end
again for the last two bit steps. -/
theorem getLsbD_step8_zero (e : Byte) (i : Nat) : (step8 0#32 e).getLsbD i =
    ((e.getLsbD 0 && (crcPoly.getLsbD (i + 7) ^^ crcPoly.getLsbD (i + 1))) ^^
      (e.getLsbD 1 && (crcPoly.getLsbD (i + 6) ^^ crcPoly.getLsbD i)) ^^
      (e.getLsbD 2 && crcPoly.getLsbD (i + 5)) ^^ (e.getLsbD 3 && crcPoly.getLsbD (i + 4)) ^^
      (e.getLsbD 4 && crcPoly.getLsbD (i + 3)) ^^ (e.getLsbD 5 && crcPoly.getLsbD (i + 2)) ^^
      (e.getLsbD 6 && crcPoly.getLsbD (i + 1)) ^^ (e.getLsbD 7 && crcPoly.getLsbD i)) := by
  obtain ⟨h0, h1, h2, h3, h4, h5, h6⟩ : crcPoly.getLsbD 0 = false ∧ crcPoly.getLsbD 1 = false ∧ crcPoly.getLsbD 2 = false ∧
      crcPoly.getLsbD 3 = false ∧ crcPoly.getLsbD 4 = false ∧ crcPoly.getLsbD 5 = true ∧ crcPoly.getLsbD 6 = false := by decide
  simp only [step8, byteBits, feedBits_cons, feedBits_nil, getLsbD_step1, h0, h1, h2, h3, h4, h5, h6, BitVec.getLsbD_zero,
    Bool.and_false, Bool.and_true, Bool.false_xor, Bool.xor_false, Nat.add_assoc, Nat.reduceAdd, Bool.and_xor_distrib_left,
    Bool.and_xor_distrib_right]
  have : Std.Commutative xor := ⟨Bool.xor_comm⟩
  ac_rfl

/-- Each equation of R84 gives its bit: the register bit that shifts there, and what feeds back. -/
theorem getD_parallelBits (c : Word) (e : Byte) {i : Nat} (hi : i < 32) :
    (parallelBits c.getLsbD e.getLsbD).getD i false = (c.getLsbD (i + 8) ^^ (step8 0#32 e).getLsbD i) := by
  rw [getLsbD_step8_zero]
  interval_cases i <;> simp [-BitVec.getLsbD_eq_getElem, parallelBits, crcPoly]

/-- Settles O27: the 32 equations, bit by bit. -/
theorem parallelEquationsAreByteStep : Obligations.ParallelEquationsAreByteStep := by
  intro c d
  apply BitVec.eq_of_getLsbD_eq
  intro i hi
  rw [step8Parallel, BitVec.getLsbD_ofFnLE, dif_pos hi, getD_parallelBits c _ hi, step8_eq_xor_shift c d, BitVec.getLsbD_xor,
    BitVec.getLsbD_ushiftRight, Nat.add_comm 8, Bool.xor_comm]

end Sys2Proof.Machine

namespace Sys2Proof.Machine

/-! ### The MSB-first register (R90) -/

theorem getLsbD_reverse_of_lt {w i : Nat} (x : BitVec w) (h : i < w) : x.reverse.getLsbD i = x.getLsbD (w - 1 - i) := by
  rw [BitVec.getLsbD_reverse, BitVec.getMsbD_eq_getLsbD, decide_eq_true h, Bool.true_and]

theorem reverse_xor {w : Nat} (x y : BitVec w) : (x ^^^ y).reverse = x.reverse ^^^ y.reverse := by
  apply BitVec.eq_of_getLsbD_eq
  intro i hi
  simp only [getLsbD_reverse_of_lt _ hi, BitVec.getLsbD_xor]

theorem reverse_zero {w : Nat} : (0#w).reverse = 0#w := by
  rw [← BitVec.xor_self (x := 0#w), reverse_xor, BitVec.xor_self, BitVec.xor_self]

theorem reverse_shiftLeft {w : Nat} (x : BitVec w) (k : Nat) : (x <<< k).reverse = x.reverse >>> k := by
  apply BitVec.eq_of_getLsbD_eq
  intro i hi
  rw [getLsbD_reverse_of_lt _ hi, BitVec.getLsbD_shiftLeft, BitVec.getLsbD_ushiftRight]
  by_cases hk : k + i < w
  · have hindex : w - 1 - i - k = w - 1 - (k + i) := by omega
    have hkept : w - 1 - i < w ∧ ¬w - 1 - i < k := by omega
    simp [getLsbD_reverse_of_lt x hk, hindex, hkept]
  · have hlost : w - 1 - i < k := by omega
    simp [BitVec.getLsbD_of_ge x.reverse (k + i) (by omega), hlost]

set_option maxRecDepth 8000 in
/-- The two forms of the polynomial are each other's reversal (R80). -/
theorem reverse_crcPolyNormal : crcPolyNormal.reverse = crcPoly := by decide

set_option maxRecDepth 8000 in
theorem reverse_crcInit : crcInit.reverse = crcInit := by decide

/-- Reversed, the MSB-first step is the bit step of a 0 bit. -/
theorem reverse_msbStep (r : Word) : (msbStep r).reverse = step1 r.reverse false := by
  have htop : r.reverse.getLsbD 0 = r.getLsbD 31 := getLsbD_reverse_of_lt r (by decide)
  rw [msbStep, reverse_xor, reverse_shiftLeft, step1, htop, Bool.xor_false]
  cases r.getLsbD 31
  · rw [if_neg Bool.false_ne_true, if_neg Bool.false_ne_true, reverse_zero, BitVec.xor_zero]
  · exact congrArg (r.reverse >>> 1 ^^^ ·) reverse_crcPolyNormal

/-- The byte may as well be brought into the register before the bit steps, which then take 0 bits. -/
theorem step8_eq_step8_zero (c : Word) (d : Byte) : step8 c d = step8 (c ^^^ d.setWidth 32) 0#8 := by
  have hlow : (d.setWidth 32).extractLsb' 0 8 = d := by
    apply BitVec.eq_of_getLsbD_eq
    intro i hi
    simp [hi, Nat.lt_trans hi]
  have hgone : d.setWidth 32 >>> 8 = 0#32 := by
    apply BitVec.eq_of_getLsbD_eq
    intro i _
    simp
  have hown : step8 (d.setWidth 32) d = 0#32 := by
    have := step8_low_byte (d.setWidth 32)
    rwa [hlow, hgone] at this
  rw [← BitVec.xor_self (x := d), step8_xor, hown, BitVec.xor_zero]

/-- The MSB-first register takes a byte in at its top, reversed; that is the reflected register's low byte. -/
theorem reverse_msbByte (d : Byte) : (d.reverse.setWidth 32 <<< 24).reverse = d.setWidth 32 := by
  rw [reverse_shiftLeft]
  apply BitVec.eq_of_getLsbD_eq
  intro i hi
  rw [BitVec.getLsbD_ushiftRight, BitVec.getLsbD_setWidth]
  by_cases h : i < 8
  · have hindex : 7 - (31 - (24 + i)) = i := by omega
    rw [getLsbD_reverse_of_lt _ (by omega), BitVec.getLsbD_setWidth, getLsbD_reverse_of_lt _ (by omega), hindex]
    simp [hi, show 32 - 1 - (24 + i) < 32 by omega]
  · rw [BitVec.getLsbD_of_ge _ _ (by omega), BitVec.getLsbD_of_ge d i (by omega), Bool.and_false]

theorem reverse_msbStep8 (r : Word) (d : Byte) : (msbStep8 r d).reverse = step8 r.reverse d := by
  rw [step8_eq_step8_zero, ← reverse_msbByte, ← reverse_xor]
  simp only [msbStep8, reverse_msbStep]
  rfl

theorem reverse_msbAcc (r : Word) (M : List Byte) : (msbAcc r M).reverse = acc r.reverse M := by
  induction M generalizing r with
  | nil => rfl
  | cons d M ih => rw [acc_cons, ← reverse_msbStep8, ← ih, msbAcc, List.foldl_cons, msbAcc]

/-- Settles O28: the reversed register takes each byte as the reflected one does, and its start is its own reversal. -/
theorem msbFirstRegisterIsReversed : Obligations.MsbFirstRegisterIsReversed := by
  refine ⟨fun r M => (reverse_msbAcc r M).symm, fun M => ?_⟩
  rw [reverse_msbAcc]
  exact congrArg (fun c => finalValue (acc c M)) reverse_crcInit

/-! ### The residue (R80) -/

/-- A word's own bytes, the least significant first, bring the register from the word to 0. -/
theorem acc_wordBytesLE_self (v : Word) : acc v (wordBytesLE v) = 0#32 := by
  calc acc v (wordBytesLE v)
      = step8 (step8 (step8 (step8 (v >>> 0) (v.extractLsb' 0 8)) (v.extractLsb' 8 8)) (v.extractLsb' 16 8)) (v.extractLsb' 24 8) := rfl
    _ = v >>> 32 := by simp only [step8_own_byte, Nat.reduceAdd]
    _ = 0#32 := BitVec.ushiftRight_eq_zero le_rfl

set_option maxRecDepth 8000 in
/-- The residue itself, from four zero bytes (R80). -/
theorem acc_crcInit_zeros : acc crcInit (wordBytesLE 0#32) = 0xDEBB20E3#32 := by decide

/-- Settles O31: the register differs from the initial one by the CRC, whose own bytes take that difference to 0. -/
theorem residueAfterOwnCrc : Obligations.ResidueAfterOwnCrc := by
  intro M
  have hreg : acc crcInit M = crcInit ^^^ crc32 M := by
    rw [crc32, finalValue, BitVec.xor_comm (acc crcInit M), ← BitVec.xor_assoc]
    exact BitVec.zero_xor.symm
  have hbytes : wordBytesLE (crc32 M) = List.zipWith (· ^^^ ·) (wordBytesLE 0#32) (wordBytesLE (crc32 M)) := by
    simp [wordBytesLE]
  have hlen : (wordBytesLE 0#32).length = (wordBytesLE (crc32 M)).length := rfl
  rw [acc_concat, hreg, hbytes, acc_xor _ _ hlen, acc_wordBytesLE_self, acc_crcInit_zeros, BitVec.xor_zero]

end Sys2Proof.Machine

namespace Sys2Proof.Machine

/-! ### The bits of a message (R42) -/

theorem byteBits_injective : Function.Injective byteBits := by
  intro d d' h
  simp only [byteBits, List.cons.injEq] at h
  apply BitVec.eq_of_getLsbD_eq
  intro i hi
  interval_cases i <;> simp only [h]

theorem messageBits_concat (M N : List Byte) : messageBits (M ++ N) = messageBits M ++ messageBits N :=
  List.flatMap_append

theorem length_messageBits (M : List Byte) : (messageBits M).length = 8 * M.length := by
  induction M with
  | nil => rfl
  | cons d M ih =>
    rw [messageBits, List.flatMap_cons, List.length_append, ← messageBits, ih, byteBits_length, List.length_cons]
    omega

theorem messageBits_inj {M M' : List Byte} (hlen : M.length = M'.length) (h : messageBits M = messageBits M') : M = M' := by
  induction M generalizing M' with
  | nil => exact (List.length_eq_zero_iff.mp hlen.symm).symm
  | cons d M ih =>
    obtain ⟨d', M', rfl⟩ := List.exists_cons_of_length_eq_add_one hlen.symm
    obtain ⟨hd, hM⟩ := List.append_inj h rfl
    rw [byteBits_injective hd, ih (Nat.succ.inj hlen) hM]

/-! ### Which errors are detected (R91) -/

/-- The bit step can be undone: two registers after it that agree on the top bit, the feedback bit, agree wherever the registers before it
agreed one place higher. -/
theorem getLsbD_succ_of_step1 {c c' : Word} {b b' : Bool} {i : Nat}
    (htop : (step1 c b).getLsbD 31 = (step1 c' b').getLsbD 31) (hi : (step1 c b).getLsbD i = (step1 c' b').getLsbD i) :
    c.getLsbD (i + 1) = c'.getLsbD (i + 1) := by
  rw [getLsbD_step1_top, getLsbD_step1_top] at htop
  rw [getLsbD_step1, getLsbD_step1, htop] at hi
  exact Bool.xor_left_inj.mp hi

theorem step1_injective (b : Bool) : Function.Injective (step1 · b) := by
  intro c c' h
  replace h (i : Nat) := congrArg (BitVec.getLsbD · i) h
  apply BitVec.eq_of_getLsbD_eq
  intro i _
  cases i with
  | zero =>
    have htop := h 31
    simp only [getLsbD_step1_top] at htop
    exact Bool.xor_left_inj.mp htop
  | succ i => exact getLsbD_succ_of_step1 (h 31) (h i)

theorem feedBits_injective (bs : List Bool) : Function.Injective (feedBits · bs) := by
  induction bs with
  | nil => exact Function.injective_id
  | cons b bs ih => exact ih.comp (step1_injective b)

/-- Registers that equally many bits bring together agreed on the bits too high to have reached the low end. -/
theorem getLsbD_eq_of_feedBits_eq {bs bs' : List Bool} (hlen : bs.length = bs'.length) {c c' : Word}
    (h : feedBits c bs = feedBits c' bs') {i : Nat} (hi : bs.length ≤ i) : c.getLsbD i = c'.getLsbD i := by
  induction bs generalizing bs' c c' i with
  | nil =>
    obtain rfl : bs' = [] := List.length_eq_zero_iff.mp hlen.symm
    exact congrArg (BitVec.getLsbD · i) h
  | cons b bs ih =>
    obtain ⟨b', bs', rfl⟩ := List.exists_cons_of_length_eq_add_one hlen.symm
    obtain ⟨i, rfl⟩ := Nat.exists_eq_add_one_of_ne_zero (Nat.ne_zero_of_lt hi)
    have hstep {j : Nat} (hj : bs.length ≤ j) := ih (Nat.succ.inj hlen) h hj
    have hle : bs.length ≤ i := Nat.le_of_succ_le_succ hi
    by_cases h31 : i ≤ 31
    · exact getLsbD_succ_of_step1 (hstep (hle.trans h31)) (hstep hle)
    · rw [BitVec.getLsbD_of_ge c _ (by omega), BitVec.getLsbD_of_ge c' _ (by omega)]

/-- From one register, at most 32 bits can be told from the register they leave. -/
theorem feedBits_bits_inj {bs bs' : List Bool} (hlen : bs.length = bs'.length) (h32 : bs.length ≤ 32) {c : Word}
    (h : feedBits c bs = feedBits c bs') : bs = bs' := by
  induction bs generalizing bs' c with
  | nil => exact (List.length_eq_zero_iff.mp hlen.symm).symm
  | cons b bs ih =>
    obtain ⟨b', bs', rfl⟩ := List.exists_cons_of_length_eq_add_one hlen.symm
    have htop := getLsbD_eq_of_feedBits_eq (Nat.succ.inj hlen) h (Nat.le_of_succ_le_succ h32)
    rw [getLsbD_step1_top, getLsbD_step1_top] at htop
    obtain rfl : b = b' := Bool.xor_right_inj.mp htop
    rw [ih (Nat.succ.inj hlen) (Nat.le_of_succ_le h32) h]

theorem finalValue_injective : Function.Injective finalValue := fun _ _ h => (BitVec.xor_left_inj crcXorOut).mp h

/-- Settles O33: the bits after the span leave different registers different, and the span itself can be told from the register. -/
theorem burstOf32BitsIsDetected : Obligations.BurstOf32BitsIsDetected := by
  intro M M' before after span span' hM hM' hlen h32 hne hcrc
  have hacc : acc crcInit M = acc crcInit M' := finalValue_injective hcrc
  rw [acc_eq_feedBits, acc_eq_feedBits, hM, hM', feedBits_concat, feedBits_concat, feedBits_concat, feedBits_concat] at hacc
  exact hne (feedBits_bits_inj hlen h32 (feedBits_injective after hacc))

/-- Settles O32: the bits of one byte are a span of 8. -/
theorem singleByteChangeIsDetected : Obligations.SingleByteChangeIsDetected := by
  intro before after d d' hne
  have hbits (x : Byte) : messageBits (before ++ x :: after) = messageBits before ++ byteBits x ++ messageBits after := by
    rw [messageBits_concat, List.append_assoc]
    rfl
  exact burstOf32BitsIsDetected _ _ _ _ _ _ (hbits d) (hbits d') rfl (by simp [byteBits_length])
    (byteBits_injective.ne hne)

theorem crc32_inj_of_short {M M' : List Byte} (hlen : M.length = M'.length) (h4 : M.length ≤ 4) (h : crc32 M = crc32 M') :
    M = M' := by
  by_contra hne
  refine burstOf32BitsIsDetected M M' [] [] (messageBits M) (messageBits M') (by simp) (by simp) ?_ ?_
    (mt (messageBits_inj hlen) hne) h
  · rw [length_messageBits, length_messageBits, hlen]
  · rw [length_messageBits]
    omega

theorem wordBytes_injective : Function.Injective wordBytes := by
  intro v v' h
  simp only [wordBytes, List.cons.injEq] at h
  obtain ⟨h3, h2, h1, h0, -⟩ := h
  rw [← packBytes_extractLsb' v, h3, h2, h1, h0, packBytes_extractLsb']

/-- Settles O34: a short message is a span of at most 32 bits; the words are as many as the messages of 4 bytes, so the CRC reaches them all. -/
theorem shortMessagesAreDistinguished : Obligations.ShortMessagesAreDistinguished := by
  refine ⟨fun _ _ => crc32_inj_of_short, fun v => ?_⟩
  have hinj : Function.Injective (crc32 ∘ wordBytes) := fun v v' h =>
    wordBytes_injective (crc32_inj_of_short rfl le_rfl h)
  obtain ⟨u, hu⟩ := Finite.surjective_of_injective hinj v
  exact ⟨wordBytes u, rfl, hu⟩

/-! ### A changed chunk (R91, R131) -/

/-- CHUNKCHECK's last two commands: MISMATCH and bit 0 of the STATUS response say whether the CRC differs from the stored one. -/
theorem runInstrs_chunkCheck (type : Word) (data : List Byte) (stored : Word) (s : State) : ∃ t v,
    runInstrs (chunkCheck type data stored) s = .next t ∧ t.inFlight.getLast? = some { value := v, age := 0 } ∧
    t.engine.mismatch = (crc32 (chunkMessage type data) != stored) ∧ v.getLsbD 0 = t.engine.mismatch := by
  refine ⟨_, _, runInstrs_chunk type data [.check stored, .status 0] s, State.getLast?_respond .., ?_, statusWord_getLsbD_zero _⟩
  rw [State.respond_engine, State.respond_engine, State.withEngine_engine, Engine.compare_mismatch, mismatchOf, finalValue_fed_reset]

/-- Settles O40: the changed byte changes the CRC of the chunk's message. -/
theorem changedDataByteFailsCheck : Obligations.ChangedDataByteFailsCheck := by
  intro type before after d d' s hne
  obtain ⟨t, v, hrun, hlast, hmismatch, hbit⟩ :=
    runInstrs_chunkCheck type (before ++ d' :: after) (crc32 (wordBytes type ++ (before ++ d :: after))) s
  have hset : t.engine.mismatch = true := by
    rw [hmismatch, bne_iff_ne, chunkMessage, ← List.append_assoc, ← List.append_assoc]
    exact singleByteChangeIsDetected _ _ _ _ hne.symm
  exact ⟨t, v, hrun, hset, hlast, hbit.trans hset⟩

end Sys2Proof.Machine

namespace Sys2Proof.Machine

/-! ### The rules' examples (R80, R81, R82, R91) -/

/-- Settles O25: the eleven examples, computed. -/
theorem datapathExamples : Obligations.DatapathExamples := by
  unfold Obligations.DatapathExamples
  decide

set_option maxRecDepth 8000 in
/-- Settles O30: the polynomial reversed and the check value, computed. -/
theorem parameterSetAgrees : Obligations.ParameterSetAgrees := by
  refine ⟨reverse_crcPolyNormal, ?_⟩
  decide

set_option maxRecDepth 8000 in
/-- Settles O35: the four CRCs, computed. -/
theorem collisionOfTheRule : Obligations.CollisionOfTheRule := by
  unfold Obligations.CollisionOfTheRule
  decide

end Sys2Proof.Machine

namespace Sys2Proof.Machine

/-! ### The count (R30, R101, R109) -/

/-- The carry out of an advance by one: the count was at its last value (R28). -/
theorem decide_two_pow_le_toNat_add_one (c : Word) : decide (2 ^ 32 ≤ c.toNat + 1) = (c == 0xFFFFFFFF#32) := by
  have hlast : 2 ^ 32 ≤ c.toNat + 1 ↔ c = 0xFFFFFFFF#32 := by
    rw [← BitVec.toNat_inj, BitVec.toNat_ofNat]
    have := c.isLt
    omega
  rw [decide_eq_decide.mpr hlast, beq_eq_decide]

/-- The count and the whole multiples of 2^32 that it has lost make up the length (R30). -/
theorem Tracks.length_eq {M : List Byte} {e : Engine} (h : Tracks M e) :
    M.length = e.count.toNat + 2 ^ 32 * (M.length / 2 ^ 32) := by
  obtain ⟨-, hcount, -⟩ := h
  rw [hcount, BitVec.toNat_ofNat, Nat.mod_add_div]

/-- Settles O44: WRAP says whether the count has lost a multiple of 2^32. -/
theorem countTellsLength : Obligations.CountTellsLength := by
  intro M e htracks
  have hlen := htracks.length_eq
  obtain ⟨-, -, hwrap⟩ := htracks
  refine ⟨fun hoff => ?_, fun hon => ?_⟩
  · have hshort : M.length < 2 ^ 32 := Nat.lt_of_not_le (of_decide_eq_false (hwrap.symm.trans hoff))
    rwa [Nat.div_eq_of_lt hshort] at hlen
  · have hlong : 2 ^ 32 ≤ M.length := of_decide_eq_true (hwrap.symm.trans hon)
    exact ⟨M.length / 2 ^ 32, Nat.div_pos hlong (Nat.two_pow_pos 32), hlen⟩

/-- Settles O12: the new count and the carry are those of the sum, for every advance below 2^32. -/
theorem countAdvanceIsModular : Obligations.CountAdvanceIsModular := by
  intro e k hk
  have hlt : k < 2 ^ 32 := by omega
  refine ⟨?_, ?_, rfl, rfl, rfl, rfl⟩
  · rw [Engine.advance_count, countLow_eq, BitVec.toNat_add, BitVec.toNat_ofNat, Nat.add_mod_mod]
  · rw [Engine.advance_wrap, countCarry_eq _ _ hlt]

/-! ### Each command's next state (R102 to R110) -/

/-- Settles O5: a FEED of one byte, whose carry is that of an advance by one. -/
theorem feed8AppendsOneByte : Obligations.Feed8AppendsOneByte := by
  intro ign d s
  rw [exec_of_isFeed rfl, ← decide_two_pow_le_toNat_add_one]
  rfl

/-- Settles O6: a FEED of the word's four bytes. -/
theorem feed32AppendsFourBytes : Obligations.Feed32AppendsFourBytes := by
  intro v s
  have hcarry : 0xFFFFFFFF < s.engine.count.toNat + 4 ↔ 2 ^ 32 ≤ s.engine.count.toNat + 4 := Nat.lt_iff_add_one_le
  rw [exec_of_isFeed rfl, decide_eq_decide.mpr hcarry]
  rfl

/-- Settles O3: NOP keeps the record. -/
theorem nopAnswersZero : Obligations.NopAnswersZero := fun ign => exec_eq (.nop ign)

/-- Settles O4: the record INIT leaves does not depend on the one it finds. -/
theorem initWritesWholeRecord : Obligations.InitWritesWholeRecord := fun ign => exec_eq (.init ign)

/-- Settles O7: READ keeps the record. -/
theorem readAnswersFinalValue : Obligations.ReadAnswersFinalValue := fun ign => exec_eq (.read ign)

/-- Settles O8: CHECK's record, with its comparison written as an inequality. -/
theorem checkComparesAndAnswers : Obligations.CheckComparesAndAnswers := by
  intro v s
  have hmismatch : mismatchOf s.engine.crcReg v = decide (s.engine.crcReg ^^^ 0xFFFFFFFF#32 ≠ v) := by
    rw [mismatchOf, bne, beq_eq_decide, ← decide_not, finalValue, crcXorOut]
  rw [exec_eq, ← hmismatch]
  rfl

/-- The bits of the STATUS word, from bit 0 up (R29). -/
theorem getLsbD_statusWord (e : Engine) (i : Nat) :
    (statusWord e).getLsbD i = [e.mismatch, e.checked, e.illegal, e.wrap].getD i false := by
  rw [statusWord, BitVec.getLsbD_append, BitVec.getLsbD_append, BitVec.getLsbD_append, BitVec.getLsbD_append]
  match i with
  | 0 | 1 | 2 | 3 | i + 4 => simp

/-- Settles O9: STATUS keeps the record, and answers the STATUS word. -/
theorem statusAnswersFlags : Obligations.StatusAnswersFlags := fun ign s =>
  have hbit := getLsbD_statusWord s.engine
  ⟨_, exec_eq (.status ign) s, hbit 0, hbit 1, hbit 2, hbit 3, fun i hi => (hbit i).trans (List.getD_eq_default _ _ hi)⟩

/-- Settles O10: COUNT keeps the record. -/
theorem countAnswersCount : Obligations.CountAnswersCount := fun ign => exec_eq (.count ign)

/-- Settles O11: the record with ILLEGAL set, whichever reserved opcode it is. -/
theorem reservedSetsIllegalOnly : Obligations.ReservedSetsIllegalOnly := fun op ign => exec_eq (.reserved op ign)

/-- Settles O14: the branch of the step for a command. -/
theorem stepRunsDecodedCommand : Obligations.StepRunsDecodedCommand := by
  intro s w rest hevents
  simp only [step, hevents, State.withEvents]

end Sys2Proof.Machine

namespace Sys2Proof.Machine

/-! ### No run stops, and the engine at rest (R130, R143, R152) -/

/-- With nothing at the port the engine waits (R143, R152). -/
theorem step_of_events_nil {s : State} (h : s.events = []) : step s = .next s := by
  simp only [step, h]

/-- With an event at the port the step is that event's effect on the state with the event taken. -/
theorem step_of_events_cons {s : State} {ev : PortEvent} {evs : List PortEvent} (h : s.events = ev :: evs) :
    step s = .next (ev.effect (s.withEvents evs)) := by
  rw [← step_withEvents_cons, ← h]
  rfl

/-- No step faults and none is refused (R100, R130). -/
theorem exists_step_eq_next (s : State) : ∃ t, step s = .next t := by
  cases h : s.events with
  | nil => exact ⟨s, step_of_events_nil h⟩
  | cons ev evs => exact ⟨_, step_of_events_cons h⟩

/-- Settles O16: the branch of the step for an empty input. -/
theorem idleHoldsState : Obligations.IdleHoldsState := fun _ => step_of_events_nil

/-- Settles O19, by induction on the number of steps: the first one answers a next state, and the rest run from it. -/
theorem noRunStops : Obligations.NoRunStops := by
  intro n
  induction n with
  | zero => exact fun s => ⟨s, rfl⟩
  | succ n ih =>
    intro s
    obtain ⟨t, hstep⟩ := exists_step_eq_next s
    obtain ⟨u, hrun⟩ := ih t
    exact ⟨u, (run_succ_of_step hstep n).trans hrun⟩

/-! ### Several engines (R141) -/

/-- Where `f` answers a next state for one engine, the platform has that engine's state written in its place. -/
theorem Platform.on_of_next {n : Nat} (p : Platform n) (k : Fin n) {f : State → Host.Outcome State Fault Refusal}
    {t : State} (h : f p[k] = .next t) : p.on k f = .next (p.set k t) := by
  simp only [Platform.on, h]

/-- Settles O57: the platform after the command differs from the one before it in the engine addressed alone. -/
theorem enginesShareNoState : Obligations.EnginesShareNoState := by
  intro n p k i
  have hexec := exec_eq i p[k]
  refine ⟨_, p.on_of_next k hexec, ?_, fun j hj => ?_⟩
  · rw [hexec]
    exact congrArg _ (Vector.getElem_set_self k.isLt).symm
  · exact Vector.getElem_set_ne k.isLt j.isLt (Fin.val_ne_of_ne hj.symm)

end Sys2Proof.Machine

namespace Sys2Proof.Machine

/-! ### The record and the responses of the commands accepted (R155, R156) -/

/-- One command word more from reset: its effect on what the words before it leave. -/
theorem stateAfter_concat (ws : List CmdWord) (w : CmdWord) :
    stateAfter (ws ++ [w]) = (PortEvent.command w).effect (stateAfter ws) := by
  rw [stateAfter, List.foldl_append, List.foldl_cons, List.foldl_nil, exec_eq]
  rfl

/-- Every event keeps it that the state answers for the commands accepted: a command adds its response, which reads the record that
they leave; a delivery moves one; a reset begins anew. -/
theorem AnswersFor.effect {ws : List CmdWord} {s : State} (h : AnswersFor ws s) (ev : PortEvent) :
    AnswersFor (ev.acceptedAfter ws) (ev.effect s) := by
  obtain ⟨hengine, hresponses⟩ := h
  cases ev with
  | command w =>
    rw [PortEvent.acceptedAfter, AnswersFor, stateAfter_concat]
    simp [PortEvent.effect, hengine, hresponses]
  | deliver => exact ⟨s.deliver_engine.trans hengine, s.deliver_responses.trans hresponses⟩
  | reset => exact ⟨rfl, rfl⟩

/-- Settles O47: a step waits, or takes the first event and has its effect. -/
theorem stepAnswersInOrder : Obligations.StepAnswersInOrder := by
  intro ws s t h hstep
  cases hev : s.events with
  | nil =>
    rw [step_of_events_nil hev, Host.Outcome.next.injEq] at hstep
    rw [State.acceptedByStep, hev]
    exact hstep ▸ h
  | cons ev evs =>
    rw [step_of_events_cons hev, Host.Outcome.next.injEq] at hstep
    rw [State.acceptedByStep, hev, ← hstep]
    exact AnswersFor.effect (s := s.withEvents evs) h ev

/-- A list of events keeps it, for the commands among them. -/
theorem AnswersFor.eventsEffect (evs : List PortEvent) {ws : List CmdWord} {s : State} (h : AnswersFor ws s) :
    AnswersFor (evs.foldl PortEvent.acceptedAfter ws) (eventsEffect evs s) := by
  induction evs generalizing ws s with
  | nil => exact h
  | cons ev evs ih => exact ih (h.effect ev)

@[simp] theorem State.untimed_responses (s : State) : s.untimed.responses = s.responses := by
  simp [State.responses, Function.comp_def]

/-- Timing is no part of what a state answers for. -/
theorem answersFor_untimed_iff {ws : List CmdWord} {s : State} : AnswersFor ws s.untimed ↔ AnswersFor ws s := by
  simp only [AnswersFor, State.untimed_engine, State.untimed_responses]

/-- The commands accepted by an edge are those among its events. -/
theorem acceptedByEdge_eq_foldl_edgeEvents {inp : PortInput} {s t : State} (h : edge inp s = .next t) (ws : List CmdWord) :
    s.acceptedByEdge inp ws = (edgeEvents inp s).foldl PortEvent.acceptedAfter ws := by
  rw [edgeEvents_of_edge h, State.acceptedByEdge]
  cases inp.rst <;> cases s.accepts inp <;> cases t.rspValid <;> rfl

/-- The response wires carry what is added to the delivered responses, and nothing else. -/
theorem State.emit_delivered (s : State) :
    s.emit.delivered = s.delivered ++ (if s.emit.rspValid then [s.emit.rspData] else []) := by
  obtain ⟨r, rest, -, -, hemit⟩ | ⟨-, hemit⟩ := s.emit_cases
  · rw [hemit]
    rfl
  · rw [hemit]
    exact (List.append_nil _).symm

/-- Settles O56: timing apart an edge has the effect of its events, and a tick decides the response wires as `emit` does. -/
theorem edgeAnswersInOrder : Obligations.EdgeAnswersInOrder := by
  refine ⟨fun ws inp s t h hedge => ?_, fun inp s t hrst hedge => ?_⟩
  · rw [← answersFor_untimed_iff, edge_untimed hedge, acceptedByEdge_eq_foldl_edgeEvents hedge]
    exact (answersFor_untimed_iff.mpr h).eventsEffect _
  · rw [edge_eq, hrst, if_neg Bool.false_ne_true, Host.Outcome.next.injEq] at hedge
    subst hedge
    split <;> exact State.emit_delivered _

/-! ### A command held at the port (R157) -/

/-- With a command held at the port and no reset, acceptance is the end of the port's wait. -/
theorem accepts_iff_lowFor {inp : PortInput} (hrst : inp.rst = false) (hvalid : inp.cmdValid = true) (s : State) :
    s.accepts inp = true ↔ s.port.lowFor = 0 := by
  simp [State.accepts, hrst, hvalid, State.cmdReady_iff]

theorem State.tick_lowFor (s : State) : (s.tick false).port.lowFor = s.port.lowFor - 1 := by
  rw [State.tick_port, Port.lowFor_rsp, Port.lowFor_tick]

/-- While the wait lasts, the edges at which a command is held shorten it by one each. -/
theorem runEdges_replicate_lowFor {inp : PortInput} (hrst : inp.rst = false) (hvalid : inp.cmdValid = true) (m : Nat)
    {s : State} (hm : m ≤ s.port.lowFor) :
    ∃ t, runEdges (List.replicate m inp) s = .next t ∧ t.port.lowFor = s.port.lowFor - m := by
  induction m generalizing s with
  | zero => exact ⟨s, rfl, rfl⟩
  | succ m ih =>
    have hwaits : ¬ s.accepts inp = true := by
      rw [accepts_iff_lowFor hrst hvalid]
      omega
    have hedge : edge inp s = .next (s.tick false) := by
      rw [edge_eq, hrst, if_neg Bool.false_ne_true, if_neg hwaits]
    obtain ⟨t, hrun, hlow⟩ := ih (s := s.tick false) (by rw [State.tick_lowFor]; omega)
    refine ⟨t, by rw [List.replicate_succ, runEdges, hedge]; exact hrun, ?_⟩
    rw [hlow, State.tick_lowFor]
    omega

/-- Settles O54: after as many edges as the wait lasts it is over, and after fewer it is not. -/
theorem heldCommandIsAccepted : Obligations.HeldCommandIsAccepted := by
  intro inp s hrst hvalid
  obtain ⟨t, hrun, hlow⟩ := runEdges_replicate_lowFor hrst hvalid s.port.lowFor le_rfl
  refine ⟨t, hrun, (accepts_iff_lowFor hrst hvalid t).mpr (by omega), fun m u hm hu => ?_⟩
  obtain ⟨t', hrun', hlow'⟩ := runEdges_replicate_lowFor hrst hvalid m hm.le
  rw [hu, Host.Outcome.next.injEq] at hrun'
  subst hrun'
  rw [← Bool.not_eq_true, accepts_iff_lowFor hrst hvalid]
  omega

/-! ### Reset (R150, R151) -/

/-- Settles O2: the effect of a reset event. -/
theorem resetBetweenCommands : Obligations.ResetBetweenCommands := fun _ _ => step_of_events_cons

/-- Settles O48: the reset branch of the edge; `rst` keeps the port from accepting. -/
theorem resetEdgeResets : Obligations.ResetEdgeResets := by
  intro inp s hrst
  refine ⟨{ s.resetNow with port := s.port.resetEdge }, by rw [edge_eq, if_pos hrst], rfl, rfl, rfl, rfl, ?_⟩
  rw [State.accepts, hrst, Bool.not_true, Bool.and_false]

/-- With nothing in flight there is nothing for the port's invariant to bound. -/
theorem portInv_of_inFlight_nil {s : State} (h : s.inFlight = []) : PortInv s := by
  simp [PortInv, h]

/-- Settles O51: nothing is in flight at reset (R151). -/
theorem resetHasPortInvariant : Obligations.ResetHasPortInvariant := portInv_of_inFlight_nil rfl

end Sys2Proof.Machine
